-- ==== Sys2Proof/Word.lean ====
section
/-! DEFINITION. The word types of the machine (00_scope.md R6, R9): every value is unsigned. -/

namespace Sys2Proof

/-- An 8-bit unsigned value: a general register, a timer, a byte of memory, an immediate `kk`. -/
abbrev Byte := BitVec 8

/-- A 16-bit unsigned value: the instruction word, `pc`, `I`, a stack slot, the keyboard state. -/
abbrev Word := BitVec 16

/-- The 12-bit address field `nnn`. -/
abbrev Addr12 := BitVec 12

/-- A 4-bit field: the family, a register index `x` or `y`, the row count `n`. -/
abbrev Nibble := BitVec 4

end Sys2Proof
end

