-- ==== Sys2Proof/Syntax.lean ====
section
/-! DEFINITION. The 35 instructions of spec/opcode_table.json, one constructor a row, in the table's order. -/

namespace Sys2Proof

/-- One constructor per row of 30_encoding.md R104; operands are the fields R101 names, at their own widths (R103:
every 4-bit value is a valid register index). -/
inductive Instr
  /-- `00E0` CLS -/
  | cls
  /-- `00EE` RET -/
  | ret
  /-- `0nnn` SYS nnn, every family-0 word but the two above (R105). -/
  | sys (nnn : Addr12)
  /-- `1nnn` JP nnn -/
  | jpNnn (nnn : Addr12)
  /-- `2nnn` CALL nnn -/
  | callNnn (nnn : Addr12)
  /-- `3xkk` SE Vx, kk -/
  | seVxKk (x : Nibble) (kk : Byte)
  /-- `4xkk` SNE Vx, kk -/
  | sneVxKk (x : Nibble) (kk : Byte)
  /-- `5xy0` SE Vx, Vy -/
  | seVxVy (x y : Nibble)
  /-- `6xkk` LD Vx, kk -/
  | ldVxKk (x : Nibble) (kk : Byte)
  /-- `7xkk` ADD Vx, kk -/
  | addVxKk (x : Nibble) (kk : Byte)
  /-- `8xy0` LD Vx, Vy -/
  | ldVxVy (x y : Nibble)
  /-- `8xy1` OR Vx, Vy -/
  | orVxVy (x y : Nibble)
  /-- `8xy2` AND Vx, Vy -/
  | andVxVy (x y : Nibble)
  /-- `8xy3` XOR Vx, Vy -/
  | xorVxVy (x y : Nibble)
  /-- `8xy4` ADD Vx, Vy -/
  | addVxVy (x y : Nibble)
  /-- `8xy5` SUB Vx, Vy -/
  | subVxVy (x y : Nibble)
  /-- `8xy6` SHR Vx; `y` is the ignored field of format X_ (R102), kept so that each word is one term (log 8). -/
  | shrVx (x y : Nibble)
  /-- `8xy7` SUBN Vx, Vy -/
  | subnVxVy (x y : Nibble)
  /-- `8xyE` SHL Vx; `y` as for `shrVx`. -/
  | shlVx (x y : Nibble)
  /-- `9xy0` SNE Vx, Vy -/
  | sneVxVy (x y : Nibble)
  /-- `Annn` LD I, nnn -/
  | ldINnn (nnn : Addr12)
  /-- `Bnnn` JP V0, nnn -/
  | jpV0Nnn (nnn : Addr12)
  /-- `Cxkk` RND Vx, kk -/
  | rndVxKk (x : Nibble) (kk : Byte)
  /-- `Dxyn` DRW Vx, Vy, n -/
  | drwVxVyN (x y n : Nibble)
  /-- `Ex9E` SKP Vx -/
  | skpVx (x : Nibble)
  /-- `ExA1` SKNP Vx -/
  | sknpVx (x : Nibble)
  /-- `Fx07` LD Vx, DT -/
  | ldVxDt (x : Nibble)
  /-- `Fx0A` LD Vx, K -/
  | ldVxK (x : Nibble)
  /-- `Fx15` LD DT, Vx -/
  | ldDtVx (x : Nibble)
  /-- `Fx18` LD ST, Vx -/
  | ldStVx (x : Nibble)
  /-- `Fx1E` ADD I, Vx -/
  | addIVx (x : Nibble)
  /-- `Fx29` LD F, Vx -/
  | ldFVx (x : Nibble)
  /-- `Fx33` LD B, Vx -/
  | ldBVx (x : Nibble)
  /-- `Fx55` LD [I], Vx -/
  | ldMemVx (x : Nibble)
  /-- `Fx65` LD Vx, [I] -/
  | ldVxMem (x : Nibble)
  deriving DecidableEq, Repr

end Sys2Proof
end

