-- ==== Sys2Proof/Decode.lean ====
section
/-! DEFINITION. Field extraction (R101, R133), the decoder (R134, with the unsupported space of R105-R110), the opcode
table as rows of mask and match (R104), and the encoder. Decoding reads no state (R133). -/

namespace Sys2Proof

/-! ## Fields of a word (30_encoding.md R101, 00_scope.md R8) -/

/-- The family nibble `w[15:12]`. -/
def Word.opField (w : Word) : Nibble := w.extractLsb' 12 4

/-- `x = w[11:8]` (C13: the value `(w >> 8) & 0xF`). -/
def Word.xField (w : Word) : Nibble := w.extractLsb' 8 4

/-- `y = w[7:4]`. -/
def Word.yField (w : Word) : Nibble := w.extractLsb' 4 4

/-- `n = w[3:0]`. -/
def Word.nField (w : Word) : Nibble := w.extractLsb' 0 4

/-- `kk = w[7:0]`. -/
def Word.kkField (w : Word) : Byte := w.extractLsb' 0 8

/-- `nnn = w[11:0]`. -/
def Word.nnnField (w : Word) : Addr12 := w.extractLsb' 0 12

/-! ## Decoder -/

/-- Why bytes are no instruction. Every constructor but `truncated` is R135's "unsupported". -/
inductive DecodeError
  /-- Fewer than two bytes were given: every instruction has two (R100). -/
  | truncated
  /-- `5xyn` with `n != 0` (R106). -/
  | unsupportedFamily5 (w : Word)
  /-- `8xyn` with `n` in 8..D or F (R107). -/
  | unsupportedFamily8 (w : Word)
  /-- `9xyn` with `n != 0` (R106). -/
  | unsupportedFamily9 (w : Word)
  /-- `Exkk` with `kk` neither 9E nor A1 (R108). -/
  | unsupportedFamilyE (w : Word)
  /-- `Fxkk` with `kk` none of R109's nine. -/
  | unsupportedFamilyF (w : Word)
  deriving DecidableEq, Repr

/-- Family 0 (R105). -/
def decodeFamily0 (w : Word) : Instr :=
  if w = 0x00E0#16 then .cls else if w = 0x00EE#16 then .ret else .sys w.nnnField

/-- Family 8, selected by `n` (R107). -/
def decodeFamily8 (w : Word) : Except DecodeError Instr :=
  match w.nField.toNat with
  | 0x0 => .ok (.ldVxVy w.xField w.yField)
  | 0x1 => .ok (.orVxVy w.xField w.yField)
  | 0x2 => .ok (.andVxVy w.xField w.yField)
  | 0x3 => .ok (.xorVxVy w.xField w.yField)
  | 0x4 => .ok (.addVxVy w.xField w.yField)
  | 0x5 => .ok (.subVxVy w.xField w.yField)
  | 0x6 => .ok (.shrVx w.xField w.yField)
  | 0x7 => .ok (.subnVxVy w.xField w.yField)
  | 0xE => .ok (.shlVx w.xField w.yField)
  | _ => .error (.unsupportedFamily8 w)

/-- Family E, selected by `kk` (R108). -/
def decodeFamilyE (w : Word) : Except DecodeError Instr :=
  match w.kkField.toNat with
  | 0x9E => .ok (.skpVx w.xField)
  | 0xA1 => .ok (.sknpVx w.xField)
  | _ => .error (.unsupportedFamilyE w)

/-- Family F, selected by `kk` (R109). -/
def decodeFamilyF (w : Word) : Except DecodeError Instr :=
  match w.kkField.toNat with
  | 0x07 => .ok (.ldVxDt w.xField)
  | 0x0A => .ok (.ldVxK w.xField)
  | 0x15 => .ok (.ldDtVx w.xField)
  | 0x18 => .ok (.ldStVx w.xField)
  | 0x1E => .ok (.addIVx w.xField)
  | 0x29 => .ok (.ldFVx w.xField)
  | 0x33 => .ok (.ldBVx w.xField)
  | 0x55 => .ok (.ldMemVx w.xField)
  | 0x65 => .ok (.ldVxMem w.xField)
  | _ => .error (.unsupportedFamilyF w)

/-- 40_fetch_dispatch.md R134: a total function over the top nibble with 16 outcomes. The last arm is family F. -/
def decodeWord (w : Word) : Except DecodeError Instr :=
  match w.opField.toNat with
  | 0x0 => .ok (decodeFamily0 w)
  | 0x1 => .ok (.jpNnn w.nnnField)
  | 0x2 => .ok (.callNnn w.nnnField)
  | 0x3 => .ok (.seVxKk w.xField w.kkField)
  | 0x4 => .ok (.sneVxKk w.xField w.kkField)
  | 0x5 => if w.nField = 0 then .ok (.seVxVy w.xField w.yField) else .error (.unsupportedFamily5 w)
  | 0x6 => .ok (.ldVxKk w.xField w.kkField)
  | 0x7 => .ok (.addVxKk w.xField w.kkField)
  | 0x8 => decodeFamily8 w
  | 0x9 => if w.nField = 0 then .ok (.sneVxVy w.xField w.yField) else .error (.unsupportedFamily9 w)
  | 0xA => .ok (.ldINnn w.nnnField)
  | 0xB => .ok (.jpV0Nnn w.nnnField)
  | 0xC => .ok (.rndVxKk w.xField w.kkField)
  | 0xD => .ok (.drwVxVyN w.xField w.yField w.nField)
  | 0xE => decodeFamilyE w
  | _ => decodeFamilyF w

/-- Two bytes as a word, the first (at the lower address) the more significant (20_memory.md R74). -/
def wordOfBytes (hi lo : Byte) : Word := hi ++ lo

/-- The decoder on bytes: one instruction and the bytes after it. -/
def decodeBytes : List Byte → Except DecodeError (Instr × List Byte)
  | hi :: lo :: rest =>
    match decodeWord (wordOfBytes hi lo) with
    | .ok i => .ok (i, rest)
    | .error e => .error e
  | [_] => .error .truncated
  | [] => .error .truncated

/-- The two bytes of a word as memory holds them (R74). -/
def bytesOfWord (w : Word) : List Byte := [w.extractLsb' 8 8, w.extractLsb' 0 8]

/-- The instruction word that the numbering of spec/opcode_table.json gives: every row is one 16-bit word, so bits at
`nbits` and above are 0 and bits above 15 belong to no instruction. -/
def tableWord (nbits w : Nat) : Word := BitVec.ofNat 16 (w % 2 ^ nbits)

/-- What the decoder reads from an instruction whose bits are `w`, laid out as the hardware stores them. -/
def decodeTableWord (nbits w : Nat) : Option Instr :=
  match decodeBytes (bytesOfWord (tableWord nbits w)) with
  | .ok (i, _) => some i
  | .error _ => none

/-! ## Encoder (30_encoding.md R102, R104) -/

/-- Format A: `oooo aaaa aaaa aaaa`. -/
def wordA (op : Nibble) (nnn : Addr12) : Word := op ++ nnn

/-- Formats XK and X: `oooo xxxx kkkk kkkk` (in X the low byte is fixed). -/
def wordXK (op x : Nibble) (kk : Byte) : Word := op ++ x ++ kk

/-- Formats XYN, XY and X_: `oooo xxxx yyyy nnnn` (in XY and X_ the low nibble is fixed). -/
def wordXYN (op x y n : Nibble) : Word := op ++ x ++ y ++ n

/-- The word of an instruction. -/
def encode (i : Instr) : Word :=
  match i with
  | .cls => 0x00E0#16
  | .ret => 0x00EE#16
  | .sys nnn => wordA 0x0 nnn
  | .jpNnn nnn => wordA 0x1 nnn
  | .callNnn nnn => wordA 0x2 nnn
  | .seVxKk x kk => wordXK 0x3 x kk
  | .sneVxKk x kk => wordXK 0x4 x kk
  | .seVxVy x y => wordXYN 0x5 x y 0x0
  | .ldVxKk x kk => wordXK 0x6 x kk
  | .addVxKk x kk => wordXK 0x7 x kk
  | .ldVxVy x y => wordXYN 0x8 x y 0x0
  | .orVxVy x y => wordXYN 0x8 x y 0x1
  | .andVxVy x y => wordXYN 0x8 x y 0x2
  | .xorVxVy x y => wordXYN 0x8 x y 0x3
  | .addVxVy x y => wordXYN 0x8 x y 0x4
  | .subVxVy x y => wordXYN 0x8 x y 0x5
  | .shrVx x y => wordXYN 0x8 x y 0x6
  | .subnVxVy x y => wordXYN 0x8 x y 0x7
  | .shlVx x y => wordXYN 0x8 x y 0xE
  | .sneVxVy x y => wordXYN 0x9 x y 0x0
  | .ldINnn nnn => wordA 0xA nnn
  | .jpV0Nnn nnn => wordA 0xB nnn
  | .rndVxKk x kk => wordXK 0xC x kk
  | .drwVxVyN x y n => wordXYN 0xD x y n
  | .skpVx x => wordXK 0xE x 0x9E
  | .sknpVx x => wordXK 0xE x 0xA1
  | .ldVxDt x => wordXK 0xF x 0x07
  | .ldVxK x => wordXK 0xF x 0x0A
  | .ldDtVx x => wordXK 0xF x 0x15
  | .ldStVx x => wordXK 0xF x 0x18
  | .addIVx x => wordXK 0xF x 0x1E
  | .ldFVx x => wordXK 0xF x 0x29
  | .ldBVx x => wordXK 0xF x 0x33
  | .ldMemVx x => wordXK 0xF x 0x55
  | .ldVxMem x => wordXK 0xF x 0x65

/-- The bytes of an instruction as memory holds them. -/
def encodeBytes (i : Instr) : List Byte := bytesOfWord (encode i)

/-! ## The opcode table (30_encoding.md R104) -/

/-- The `match / mask` column of R104 for an instruction's row: (mask, match). -/
def tableRow (i : Instr) : Word × Word :=
  match i with
  | .cls => (0xFFFF#16, 0x00E0#16)
  | .ret => (0xFFFF#16, 0x00EE#16)
  | .sys _ => (0xF000#16, 0x0000#16)
  | .jpNnn _ => (0xF000#16, 0x1000#16)
  | .callNnn _ => (0xF000#16, 0x2000#16)
  | .seVxKk _ _ => (0xF000#16, 0x3000#16)
  | .sneVxKk _ _ => (0xF000#16, 0x4000#16)
  | .seVxVy _ _ => (0xF00F#16, 0x5000#16)
  | .ldVxKk _ _ => (0xF000#16, 0x6000#16)
  | .addVxKk _ _ => (0xF000#16, 0x7000#16)
  | .ldVxVy _ _ => (0xF00F#16, 0x8000#16)
  | .orVxVy _ _ => (0xF00F#16, 0x8001#16)
  | .andVxVy _ _ => (0xF00F#16, 0x8002#16)
  | .xorVxVy _ _ => (0xF00F#16, 0x8003#16)
  | .addVxVy _ _ => (0xF00F#16, 0x8004#16)
  | .subVxVy _ _ => (0xF00F#16, 0x8005#16)
  | .shrVx _ _ => (0xF00F#16, 0x8006#16)
  | .subnVxVy _ _ => (0xF00F#16, 0x8007#16)
  | .shlVx _ _ => (0xF00F#16, 0x800E#16)
  | .sneVxVy _ _ => (0xF00F#16, 0x9000#16)
  | .ldINnn _ => (0xF000#16, 0xA000#16)
  | .jpV0Nnn _ => (0xF000#16, 0xB000#16)
  | .rndVxKk _ _ => (0xF000#16, 0xC000#16)
  | .drwVxVyN _ _ _ => (0xF000#16, 0xD000#16)
  | .skpVx _ => (0xF0FF#16, 0xE09E#16)
  | .sknpVx _ => (0xF0FF#16, 0xE0A1#16)
  | .ldVxDt _ => (0xF0FF#16, 0xF007#16)
  | .ldVxK _ => (0xF0FF#16, 0xF00A#16)
  | .ldDtVx _ => (0xF0FF#16, 0xF015#16)
  | .ldStVx _ => (0xF0FF#16, 0xF018#16)
  | .addIVx _ => (0xF0FF#16, 0xF01E#16)
  | .ldFVx _ => (0xF0FF#16, 0xF029#16)
  | .ldBVx _ => (0xF0FF#16, 0xF033#16)
  | .ldMemVx _ => (0xF0FF#16, 0xF055#16)
  | .ldVxMem _ => (0xF0FF#16, 0xF065#16)

/-- A word matches an instruction's row: `(w & mask) = match` (R104). -/
abbrev matchesRow (w : Word) (i : Instr) : Prop := w &&& (tableRow i).1 = (tableRow i).2

end Sys2Proof
end

