-- ==== Sys2Proof/Config.lean ====
section
/-! DEFINITION. What an implementation fixes (00_scope.md R7) and the two free values.
The seven parameters are fields of `Config`; State carries one Config that nothing changes, so a statement about
every state is a statement about every choice of them (log 3). -/

namespace Sys2Proof

/-- `DRAW_EDGE` (R232, D11): what happens to sprite bits off the 64 x 32 grid. -/
inductive DrawEdge
  | wrap
  | clip
  deriving DecidableEq, Repr

/-- `KEY_WAIT_MODE` (R137, D14). -/
inductive KeyWaitMode
  | edge
  | level
  | snapshot
  deriving DecidableEq, Repr

/-- `FONT_GLYPHS` (R7, R77): 16 glyphs of 5 bytes, one byte a row. -/
abbrev FontGlyphs := Vector (Vector Byte 5) 16

/-- The implementation parameters of 00_scope.md R7, each in the range R7 gives it. R7's range for `stackDepth`
(a positive integer) is `Config.Admissible`. -/
structure Config where
  /-- `STACK_DEPTH` (D20). -/
  stackDepth   : Nat
  /-- `LOAD_ADDRESS` (D19), 0..4095. -/
  loadAddress  : Fin 4096
  /-- `FONT_BASE` (D18), 0..4016, so that the 80 font bytes lie in memory. -/
  fontBase     : Fin 4017
  fontGlyphs   : FontGlyphs
  drawEdge     : DrawEdge
  keyWaitMode  : KeyWaitMode
  /-- `NO_KEY_VALUE` (D33): OPEN in the spec; read only by a `snapshot` capture with no key pressed. -/
  noKeyValue   : Byte
  deriving DecidableEq, Repr

/-- FREE VALUE (D33, log 4): the spec gives NO_KEY_VALUE no default, so nothing can be proved of this constant. -/
opaque Config.openNoKeyValue : Byte

/-- FREE VALUE (R202, D23, log 6): the k-th random byte drawn by RND. Nothing can be proved of its values. -/
opaque Config.randomByte : Nat → Byte

/-- The table of 20_memory.md R77, one glyph a line. -/
def Config.standardGlyphs : FontGlyphs :=
  #v[#v[0xF0, 0x90, 0x90, 0x90, 0xF0],
     #v[0x20, 0x60, 0x20, 0x20, 0x70],
     #v[0xF0, 0x10, 0xF0, 0x80, 0xF0],
     #v[0xF0, 0x10, 0xF0, 0x10, 0xF0],
     #v[0x90, 0x90, 0xF0, 0x10, 0x10],
     #v[0xF0, 0x80, 0xF0, 0x10, 0xF0],
     #v[0xF0, 0x80, 0xF0, 0x90, 0xF0],
     #v[0xF0, 0x10, 0x20, 0x40, 0x40],
     #v[0xF0, 0x90, 0xF0, 0x90, 0xF0],
     #v[0xF0, 0x90, 0xF0, 0x10, 0xF0],
     #v[0xF0, 0x90, 0xF0, 0x90, 0x90],
     #v[0xE0, 0x90, 0xE0, 0x90, 0xE0],
     #v[0xF0, 0x80, 0x80, 0x80, 0xF0],
     #v[0xE0, 0x90, 0x90, 0x90, 0xE0],
     #v[0xF0, 0x80, 0xF0, 0x80, 0xF0],
     #v[0xF0, 0x80, 0xF0, 0x80, 0x80]]

/-- The defaults of 00_scope.md R7. -/
def Config.default : Config where
  stackDepth  := 16
  loadAddress := 0x200
  fontBase    := 0
  fontGlyphs  := Config.standardGlyphs
  drawEdge    := .wrap
  keyWaitMode := .edge
  noKeyValue  := Config.openNoKeyValue

/-- R7: `STACK_DEPTH` is a positive integer. The other ranges are in the fields' types. -/
abbrev Config.Admissible (c : Config) : Prop := 0 < c.stackDepth

end Sys2Proof
end

