-- ==== Sys2Proof/Machine/State.lean ====
section
/-! DEFINITION. The machine's state (10_state.md R30), the error report (60_exceptions.md R300, R305), and reset
(70_reset_and_hazards.md R340). Plain data throughout. -/

namespace Sys2Proof.Machine

/-- R40: the machine has exactly two modes. -/
inductive Mode
  | running
  | awaitKeyPress
  deriving DecidableEq, Repr

/-- R300: the machine has exactly five error kinds. -/
inductive ErrorKind
  | unsupportedOpcode
  /-- R302: never raised. -/
  | notImplemented
  | stackOverflow
  | stackUnderflow
  | outOfBoundsAccess
  deriving DecidableEq, Repr

/-- R305: the error report. Its `code` is `ErrorReport.code`, a function of `kind`. -/
structure ErrorReport where
  kind   : ErrorKind
  /-- The word being executed, or none for a fetch-range error or `loadProgram`. -/
  opcode : Option Word
  pc     : Word
  /-- The offending memory address or key index of an `outOfBoundsAccess`; a natural number, since addresses are
  computed unbounded (R72). -/
  addr   : Option Nat
  deriving DecidableEq, Repr

/-- R130: what a step, or a host operation that can fail, returns to the host. -/
inductive StepResult
  | ok
  | error (report : ErrorReport)
  deriving DecidableEq, Repr

/-- R39: 32 rows of 64 pixels; `d[r][c]` is `Pix(c, r)`. -/
abbrev Display := Vector (Vector Bool 64) 32

/-- The bytes of `Mem` that differ from their reset value, as (address, byte) pairs with rising addresses; the
canonical form is `Memory.wf` in Ops.lean. -/
abbrev Memory := List Host.Cell

/-- Everything the spec gives the machine (R30), then the model's own three fields. -/
structure State where
  /-- `Mem[0..4095]` (R70). -/
  mem         : Memory
  /-- `V[0]..V[15]` (R31). -/
  v           : Vector Byte 16
  /-- The program counter (R33). -/
  pc          : Word
  /-- The index register `I` (R34). -/
  i           : Word
  /-- `Stack[0..STACK_DEPTH-1]`, stale slots included (R35, D30). -/
  stack       : List Word
  /-- The depth counter `SP` (R35). -/
  sp          : Nat
  /-- The delay timer `DT` (R36). -/
  dt          : Byte
  /-- The sound timer `ST` (R37). -/
  st          : Byte
  /-- The keyboard `K`, bit `k` for key `k` (R38, D27). -/
  keys        : Word
  /-- The display `Pix` (R39). -/
  pix         : Display
  /-- R40. -/
  mode        : Mode
  /-- `wait_x` (R41). -/
  waitX       : Nibble
  /-- `key_snapshot` (R42). -/
  keySnapshot : Word
  /-- MODEL'S OWN (log 3): the implementation parameters of R7. Nothing changes them. -/
  cfg         : Config
  /-- MODEL'S OWN (log 6): how many random bytes RND has drawn; it selects the next free byte. -/
  draws       : Nat
  /-- MODEL'S OWN (log 2): the result the last step or fallible host operation returned (R130, R141). -/
  result      : StepResult
  deriving DecidableEq, Repr

/-- Reasons to stop. EMPTY: this machine never stops. Each error kind of R300 is a RESULT of a step that leaves a
defined next state (R141, R304), so the meanings take it as a next state with the report in `result` (log 1). -/
inductive Fault where
  deriving DecidableEq, Repr

/-- Reasons to refuse. -/
inductive Refusal
  /-- Raised only by an arm of `exec` for an instruction that has no meaning yet; safe. No arm raises it: every
  instruction has its meaning. -/
  | notModelled (mnemonic : String)
  deriving DecidableEq, Repr

/-- R340 `reset()` under the parameters `c`: every element at the reset column of R30. Memory lists nothing, since an
unlisted address reads as its reset byte (log 5). -/
def State.resetWith (c : Config) : State where
  mem         := []
  v           := Vector.replicate 16 0
  pc          := BitVec.ofNat 16 c.loadAddress.val
  i           := 0
  stack       := List.replicate c.stackDepth 0
  sp          := 0
  dt          := 0
  st          := 0
  keys        := 0
  pix         := Vector.replicate 32 (Vector.replicate 64 false)
  mode        := .running
  waitX       := 0
  keySnapshot := 0
  cfg         := c
  draws       := 0
  result      := .ok

/-- The machine right after reset, at the parameters' defaults (R7, R340). -/
def State.reset : State := State.resetWith Config.default

end Sys2Proof.Machine
end

