-- ==== Sys2Proof/Machine/Ops.lean ====
section
/-! DEFINITION. The named operations over the state: one update per register, memory behind its address decoder
(20_memory.md), the call stack (R35), and how a step completes or takes an error (60_exceptions.md R304, R305, R309). -/

namespace Sys2Proof.Machine

/-! ## Registers (R31-R42) -/

/-- `V[x]` (R31). -/
def State.getV (s : State) (x : Nibble) : Byte := s.v[x.toNat]'x.isLt

/-- `V[x] <- b`. -/
def State.setV (s : State) (x : Nibble) (b : Byte) : State := { s with v := s.v.set x.toNat b x.isLt }

/-- Several registers at once: `V <- regs`. -/
def State.setRegs (s : State) (regs : Vector Byte 16) : State := { s with v := regs }

/-- `pc <- w` (never checked, R33). -/
def State.setPc (s : State) (w : Word) : State := { s with pc := w }

/-- `I <- w` (R34). -/
def State.setI (s : State) (w : Word) : State := { s with i := w }

/-- `DT <- b` (R36). -/
def State.setDt (s : State) (b : Byte) : State := { s with dt := b }

/-- `ST <- b` (R37). -/
def State.setSt (s : State) (b : Byte) : State := { s with st := b }

/-- `K <- w`, the host's alone (R38). -/
def State.setKeys (s : State) (w : Word) : State := { s with keys := w }

/-- `Pix <- d` (R39). -/
def State.setPix (s : State) (d : Display) : State := { s with pix := d }

/-- `mode`, `wait_x` and `key_snapshot` together (R40-R42). -/
def State.setWait (s : State) (m : Mode) (x : Nibble) (snapshot : Word) : State :=
  { s with mode := m, waitX := x, keySnapshot := snapshot }

/-- The stack's slots and depth counter together (R35). -/
def State.setStack (s : State) (slots : List Word) (depth : Nat) : State := { s with stack := slots, sp := depth }

/-- The bytes of memory. -/
def State.setMem (s : State) (m : Memory) : State := { s with mem := m }

/-- One more random byte drawn (log 6). -/
def State.countDraw (s : State) : State := { s with draws := s.draws + 1 }

/-- The result handed to the host (R130). -/
def State.setResult (s : State) (r : StepResult) : State := { s with result := r }

/-! ## Memory (20_memory.md) -/

/-- What `Mem[a]` holds after reset (R340, R77): glyph bytes at `FONT_BASE .. FONT_BASE+79`, else 0. This is what an
address reads as that memory does not list. -/
def resetByte (c : Config) (a : Nat) : Byte :=
  if h : c.fontBase.val ≤ a ∧ a < c.fontBase.val + 80 then
    (c.fontGlyphs[(a - c.fontBase.val) / 5]'(by omega))[(a - c.fontBase.val) % 5]'(by omega)
  else 0

/-- The byte at `a`: the listed one, else what an unlisted address reads as. -/
def Memory.read (unlisted : Nat → Byte) : Memory → Nat → Byte
  | [], a => unlisted a
  | (b, u) :: m, a => if a = b then u else Memory.read unlisted m a

/-- Store `x` at `a`, keeping addresses rising and listing only bytes that differ from the unlisted ones. -/
def Memory.write (unlisted : Nat → Byte) : Memory → Nat → Byte → Memory
  | [], a, x => if x = unlisted a then [] else [(a, x)]
  | (b, u) :: m, a, x =>
    if a < b then (if x = unlisted a then (b, u) :: m else (a, x) :: (b, u) :: m)
    else if a = b then (if x = unlisted a then m else (a, x) :: m)
    else (b, u) :: Memory.write unlisted m a x

/-- The canonical form: rising addresses, all inside the 4096 bytes (R70), no entry equal to the unlisted byte. -/
abbrev Memory.wf (unlisted : Nat → Byte) (m : Memory) : Prop :=
  m.Pairwise (fun p q => p.1 < q.1) ∧ ∀ p ∈ m, p.1 < 4096 ∧ p.2 ≠ unlisted p.1

/-- `Mem[a]` (R10 `MemRead`). Meanings check the range first (R72, R73), by `firstOutOfRange`. -/
def State.readByte (s : State) (a : Nat) : Byte := Memory.read (resetByte s.cfg) s.mem a

/-- `Mem[a] <- x` (R10 `MemWrite`); an address above 4095 is never written (R72). -/
def State.writeByte (s : State) (a : Nat) (x : Byte) : State :=
  if a < 4096 then s.setMem (Memory.write (resetByte s.cfg) s.mem a x) else s

/-- `count` bytes from `a` upwards. -/
def State.readBytes (s : State) (a count : Nat) : List Byte := (List.range count).map fun k => s.readByte (a + k)

/-- Bytes stored from `a` upwards, in order. -/
def State.writeBytes (s : State) (a : Nat) : List Byte → State
  | [] => s
  | x :: xs => (s.writeByte a x).writeBytes (a + 1) xs

/-- The address decoder for an access of `count` bytes at `base`, checked whole before any byte moves (R72, R73): the
lowest address above 4095 that it would touch. Addresses are natural numbers and do not wrap. -/
def firstOutOfRange (base count : Nat) : Option Nat :=
  if count = 0 ∨ base + count ≤ 4096 then none else some (max base 4096)

/-- The word at `pc`, big-endian (R74, R131 step 3). -/
def State.fetchWord (s : State) : Word := wordOfBytes (s.readByte s.pc.toNat) (s.readByte (s.pc.toNat + 1))

/-! ## Call stack (R35) -/

/-- `Stack[SP] <- w; SP <- SP + 1` (R161). -/
def State.pushReturn (s : State) (w : Word) : State := s.setStack (s.stack.set s.sp w) (s.sp + 1)

/-- `Stack[SP-1]`, the top (R35). -/
def State.topReturn (s : State) : Word := s.stack.getD (s.sp - 1) 0

/-- `SP <- SP - 1`; the popped slot keeps its value (R162, D30). -/
def State.popReturn (s : State) : State := s.setStack s.stack (s.sp - 1)

/-! ## Skips (R163-R166, R260, R261) -/

/-- `if c then pc <- (pc + 2) mod 2^16`. -/
def State.skipIf (s : State) (c : Bool) : State := if c then s.setPc (s.pc + 2) else s

/-! ## Ending a step -/

/-- The step returns `Ok` (R130). -/
def complete (s : State) : Host.Outcome State Fault Refusal := .next (s.setResult .ok)

/-- Taking an error (R304, R305, R309): the state as it was, and the report as the result. There is no vector, no
handler and no saved register; the report is all that is saved. `pc` in the report is the `pc` of the raw entry
`execute` (R132); under `cycle` it is moved to `pc0` by `State.reportAt` (log 7). The return from an error is R310's:
there is no instruction for it, the host's next step simply runs from this state (skip), or it calls reset. -/
def raise (kind : ErrorKind) (opcode : Option Word) (addr : Option Nat) (s : State) :
    Host.Outcome State Fault Refusal :=
  .next (s.setResult (.error { kind := kind, opcode := opcode, pc := s.pc, addr := addr }))

/-- An error raised by instruction `i` (R305: `opcode` is the word being executed). -/
def raiseIn (i : Instr) (kind : ErrorKind) (addr : Option Nat) (s : State) : Host.Outcome State Fault Refusal :=
  raise kind (some (encode i)) addr s

/-- R131 step 5: an error raised under `cycle` reports `pc0`, the address the word was fetched from. -/
def State.reportAt (s : State) (pc0 : Word) : State :=
  match s.result with
  | .ok => s
  | .error r => s.setResult (.error { r with pc := pc0 })

/-- `f` on the next state; a fault or a refusal stays. -/
def mapNext (f : State → State) (o : Host.Outcome State Fault Refusal) : Host.Outcome State Fault Refusal :=
  match o with
  | .next s => .next (f s)
  | .fault r => .fault r
  | .refused r => .refused r

/-- R300: the numeric codes. -/
def ErrorKind.code (k : ErrorKind) : Nat :=
  match k with
  | .unsupportedOpcode => 1
  | .notImplemented => 2
  | .stackOverflow => 3
  | .stackUnderflow => 4
  | .outOfBoundsAccess => 5

/-- R305: the report's `code` field. -/
def ErrorReport.code (r : ErrorReport) : Nat := r.kind.code

end Sys2Proof.Machine
end

