-- ==== Sys2Proof/Machine/Flags.lean ====
section
/-! DEFINITION. The flag VF (10_state.md R32) and the ALU's flag computations (42_alu.md R190), carries computed before
the result is masked. -/

namespace Sys2Proof.Machine

/-- VF is the 16th register. -/
def regF : Nibble := 0xF#4

/-- `if b then 1 else 0`, as VF holds it. -/
def flagByte (b : Bool) : Byte := if b then 1 else 0

/-- Carry of `a + b`: `a + b > 255` on the unmasked sum (R197). -/
def carryOut (a b : Byte) : Bool := decide (a.toNat + b.toNat > 255)

/-- No-borrow of `a - b`: the strict `a > b` (R198, R200; 0 when equal). -/
def noBorrow (a b : Byte) : Bool := decide (a.toNat > b.toNat)

/-- The bit a right shift moves out: old bit 0 (R199). -/
def shiftedOutRight (a : Byte) : Bool := a.getLsbD 0

/-- The bit a left shift moves out: old bit 7 (R201). -/
def shiftedOutLeft (a : Byte) : Bool := a.getLsbD 7

/-- `V[x] <- r; V[F] <- f`, the flag last: with `x = 0xF` VF holds the flag (R190, D9, C7). -/
def State.setVWithFlag (s : State) (x : Nibble) (r : Byte) (f : Bool) : State := (s.setV x r).setV regF (flagByte f)

end Sys2Proof.Machine
end

