-- ==== Sys2Proof/Machine/Operands.lean ====
section
/-! DEFINITION. Operand assembly (30_encoding.md R103): registers by 4-bit index, `kk` as it stands, `nnn` and register
values zero-extended, memory operands always at `I`. -/

namespace Sys2Proof.Machine

/-- `zext_16(nnn)` (R103). -/
def zextAddr (nnn : Addr12) : Word := nnn.setWidth 16

/-- `zext_16(V[x])` (R167, R265). -/
def zextByte (b : Byte) : Word := b.setWidth 16

/-- `FONT_BASE + 5 * (a & 0xF)` (R267). -/
def glyphAddress (c : Config) (a : Byte) : Word := BitVec.ofNat 16 (c.fontBase.val + 5 * (a.toNat % 16))

/-- `V[0], …, V[x]`: the registers of a block transfer (R270). -/
def State.regBlock (s : State) (x : Nibble) : List Byte :=
  (List.range (x.toNat + 1)).map fun j => s.getV (BitVec.ofNat 4 j)

/-- The register file after `V[j] <- Mem[I + j]` for `j` in 0..x (R271). -/
def State.loadBlock (s : State) (x : Nibble) : Vector Byte 16 :=
  Vector.ofFn fun j : Fin 16 => if j.val ≤ x.toNat then s.readByte (s.i.toNat + j.val) else s.v[j]

/-- The decimal digits of a byte, hundreds first (R269, D17). -/
def bcdDigits (a : Byte) : List Byte := [a / 100, a / 10 % 10, a % 10]

/-- `K[k] = 1` (R38). -/
def State.keyPressed (s : State) (k : Byte) : Bool := s.keys.getLsbD k.toNat

/-- The free random byte of this draw (R202, D23; log 6). -/
def State.randomByte (s : State) : Byte := Config.randomByte s.draws

end Sys2Proof.Machine
end

