-- ==== Sys2Proof/Machine/Alu.lean ====
section
/-! DEFINITION. Arithmetic and logic (42_alu.md). Operands are the values before the instruction (D10). -/

namespace Sys2Proof.Machine

/-- R191: `V[x] <- kk`. -/
def execLdVxKk (x : Nibble) (kk : Byte) (s : State) : Host.Outcome State Fault Refusal := complete (s.setV x kk)

/-- R192: `V[x] <- (a + kk) mod 2^8`, no flag. -/
def execAddVxKk (x : Nibble) (kk : Byte) (s : State) : Host.Outcome State Fault Refusal :=
  complete (s.setV x (s.getV x + kk))

/-- R193: `V[x] <- b`. -/
def execLdVxVy (x y : Nibble) (s : State) : Host.Outcome State Fault Refusal := complete (s.setV x (s.getV y))

/-- R194: `V[x] <- a | b`, no flag. -/
def execOrVxVy (x y : Nibble) (s : State) : Host.Outcome State Fault Refusal :=
  complete (s.setV x (s.getV x ||| s.getV y))

/-- R195: `V[x] <- a & b`, no flag. -/
def execAndVxVy (x y : Nibble) (s : State) : Host.Outcome State Fault Refusal :=
  complete (s.setV x (s.getV x &&& s.getV y))

/-- R196: `V[x] <- a ^ b`, no flag. -/
def execXorVxVy (x y : Nibble) (s : State) : Host.Outcome State Fault Refusal :=
  complete (s.setV x (s.getV x ^^^ s.getV y))

/-- R197: add with carry into VF. -/
def execAddVxVy (x y : Nibble) (s : State) : Host.Outcome State Fault Refusal :=
  complete (s.setVWithFlag x (s.getV x + s.getV y) (carryOut (s.getV x) (s.getV y)))

/-- R198: `a - b`, VF = `a > b`. -/
def execSubVxVy (x y : Nibble) (s : State) : Host.Outcome State Fault Refusal :=
  complete (s.setVWithFlag x (s.getV x - s.getV y) (noBorrow (s.getV x) (s.getV y)))

/-- R199: `a >> 1`, VF = old bit 0. `_y` is the ignored field: `V[y]` is neither read nor written. -/
def execShrVx (x _y : Nibble) (s : State) : Host.Outcome State Fault Refusal :=
  complete (s.setVWithFlag x (s.getV x >>> 1) (shiftedOutRight (s.getV x)))

/-- R200: `b - a`, VF = `b > a`. -/
def execSubnVxVy (x y : Nibble) (s : State) : Host.Outcome State Fault Refusal :=
  complete (s.setVWithFlag x (s.getV y - s.getV x) (noBorrow (s.getV y) (s.getV x)))

/-- R201: `(a << 1) mod 2^8`, VF = old bit 7. `_y` is ignored. -/
def execShlVx (x _y : Nibble) (s : State) : Host.Outcome State Fault Refusal :=
  complete (s.setVWithFlag x (s.getV x <<< 1) (shiftedOutLeft (s.getV x)))

/-- R202: `V[x] <- r & kk` for a fresh free byte `r`. -/
def execRndVxKk (x : Nibble) (kk : Byte) (s : State) : Host.Outcome State Fault Refusal :=
  complete (s.countDraw.setV x (s.randomByte &&& kk))

end Sys2Proof.Machine
end

