-- ==== Sys2Proof/Machine/Control.lean ====
section
/-! DEFINITION. Control flow and the stack (41_control_flow.md), and SYS (40_fetch_dispatch.md R136). Each meaning is an
execute phase: `pc` is the address of the next instruction (R11). -/

namespace Sys2Proof.Machine

/-- R136 (D7): SYS always raises `UnsupportedOpcode`. -/
def execSys (nnn : Addr12) (s : State) : Host.Outcome State Fault Refusal :=
  raiseIn (.sys nnn) .unsupportedOpcode none s

/-- R160: `pc <- zext_16(nnn)`. -/
def execJpNnn (nnn : Addr12) (s : State) : Host.Outcome State Fault Refusal := complete (s.setPc (zextAddr nnn))

/-- R161: `StackOverflow` when the stack is at capacity, else push `pc` and jump (D32; the test is `≤`, log 10). -/
def execCallNnn (nnn : Addr12) (s : State) : Host.Outcome State Fault Refusal :=
  if s.cfg.stackDepth ≤ s.sp then raiseIn (.callNnn nnn) .stackOverflow none s
  else complete ((s.pushReturn s.pc).setPc (zextAddr nnn))

/-- R162: `StackUnderflow` when the stack is empty, else pop into `pc`. -/
def execRet (s : State) : Host.Outcome State Fault Refusal :=
  if s.sp = 0 then raiseIn .ret .stackUnderflow none s else complete (s.popReturn.setPc s.topReturn)

/-- R163: skip if `V[x] = kk`. -/
def execSeVxKk (x : Nibble) (kk : Byte) (s : State) : Host.Outcome State Fault Refusal :=
  complete (s.skipIf (s.getV x == kk))

/-- R164: skip if `V[x] != kk`. -/
def execSneVxKk (x : Nibble) (kk : Byte) (s : State) : Host.Outcome State Fault Refusal :=
  complete (s.skipIf (s.getV x != kk))

/-- R165: skip if `V[x] = V[y]`. -/
def execSeVxVy (x y : Nibble) (s : State) : Host.Outcome State Fault Refusal :=
  complete (s.skipIf (s.getV x == s.getV y))

/-- R166: skip if `V[x] != V[y]`. -/
def execSneVxVy (x y : Nibble) (s : State) : Host.Outcome State Fault Refusal :=
  complete (s.skipIf (s.getV x != s.getV y))

/-- R167: `pc <- zext_16(nnn) + zext_16(V[0])`; the offset register is always V0. -/
def execJpV0Nnn (nnn : Addr12) (s : State) : Host.Outcome State Fault Refusal :=
  complete (s.setPc (zextAddr nnn + zextByte (s.getV 0)))

end Sys2Proof.Machine
end

