-- ==== Sys2Proof/Machine/Display.lean ====
section
/-! DEFINITION. The display group (43_display.md): CLS, the sprite engine, DRW. -/

namespace Sys2Proof.Machine

/-- `Pix(c, r)` (R39). -/
def Display.get (d : Display) (c : Fin 64) (r : Fin 32) : Bool := d[r][c]

/-- The grid with all 2048 pixels 0 (R230). -/
def Display.clear : Display := Vector.replicate 32 (Vector.replicate 64 false)

/-- `Pix(c, r) <- Pix(c, r) ^ 1`. -/
def Display.toggle (d : Display) (c : Fin 64) (r : Fin 32) : Display := d.set r (d[r].set c (!d[r][c]))

/-- The edge rule `place(u, v)` (R232, D11); none is `vis = false`. -/
def place (edge : DrawEdge) (u v : Nat) : Option (Fin 64 × Fin 32) :=
  match edge with
  | .wrap => some (Fin.ofNat 64 u, Fin.ofNat 32 v)
  | .clip => if h : u < 64 ∧ v < 32 then some (⟨u, h.1⟩, ⟨v, h.2⟩) else none

/-- One sprite bit at unreduced column `u` and row `v` (R231 step 5); the pair is the grid and `coll`. -/
def drawBit (edge : DrawEdge) (u v : Nat) (bit : Bool) (acc : Display × Bool) : Display × Bool :=
  if bit then
    match place edge u v with
    | some (c, r) => (acc.1.toggle c r, acc.2 || acc.1.get c r)
    | none => acc
  else acc

/-- The bit of a row byte for column `c` of the sprite: bit 7 is the leftmost (R231). -/
def spriteBit (row : Byte) (c : Nat) : Bool := row.getLsbD (7 - c)

/-- The eight bits of one sprite row, `c` in 0..7. -/
def drawRow (edge : DrawEdge) (cx v : Nat) (row : Byte) (acc : Display × Bool) : Display × Bool :=
  (List.range 8).foldl (fun acc c => drawBit edge (cx + c) v (spriteBit row c) acc) acc

/-- The sprite's rows from display row `v` downwards. -/
def drawRows (edge : DrawEdge) (cx : Nat) : Nat → List Byte → Display × Bool → Display × Bool
  | _, [], acc => acc
  | v, row :: rows, acc => drawRows edge cx (v + 1) rows (drawRow edge cx v row acc)

/-- The whole sprite at `(cx, cy)`, with `coll` starting at 0 (R231 steps 4 and 5). -/
def drawSprite (edge : DrawEdge) (cx cy : Nat) (rows : List Byte) (d : Display) : Display × Bool :=
  drawRows edge cx cy rows (d, false)

/-- R230: all pixels 0, no flag. -/
def execCls (s : State) : Host.Outcome State Fault Refusal := complete (s.setPix Display.clear)

/-- R231: the range check (step 2), then the sprite's bytes, the drawing, and VF = `coll` (steps 3 to 6). -/
def execDrwVxVyN (x y n : Nibble) (s : State) : Host.Outcome State Fault Refusal :=
  match firstOutOfRange s.i.toNat n.toNat with
  | some a => raiseIn (.drwVxVyN x y n) .outOfBoundsAccess (some a) s
  | none =>
    let drawn := drawSprite s.cfg.drawEdge (s.getV x).toNat (s.getV y).toNat (s.readBytes s.i.toNat n.toNat) s.pix
    complete ((s.setPix drawn.1).setV regF (flagByte drawn.2))

end Sys2Proof.Machine
end

