-- ==== Sys2Proof/Machine/KeyTimer.lean ====
section
/-! DEFINITION. Keyboard skips, timers, index register and the key wait (44_key_timer_index.md R260-R268). -/

namespace Sys2Proof.Machine

/-- R260: `OutOfBoundsAccess` when `V[x] > 15` (D15), else skip if key `V[x]` is pressed. -/
def execSkpVx (x : Nibble) (s : State) : Host.Outcome State Fault Refusal :=
  if (s.getV x).toNat > 15 then raiseIn (.skpVx x) .outOfBoundsAccess (some (s.getV x).toNat) s
  else complete (s.skipIf (s.keyPressed (s.getV x)))

/-- R261: `OutOfBoundsAccess` when `V[x] > 15` (D15), else skip if key `V[x]` is not pressed. -/
def execSknpVx (x : Nibble) (s : State) : Host.Outcome State Fault Refusal :=
  if (s.getV x).toNat > 15 then raiseIn (.sknpVx x) .outOfBoundsAccess (some (s.getV x).toNat) s
  else complete (s.skipIf (!s.keyPressed (s.getV x)))

/-- R262: `V[x] <- DT`. -/
def execLdVxDt (x : Nibble) (s : State) : Host.Outcome State Fault Refusal := complete (s.setV x s.dt)

/-- R263: `DT <- a`. -/
def execLdDtVx (x : Nibble) (s : State) : Host.Outcome State Fault Refusal := complete (s.setDt (s.getV x))

/-- R264: `ST <- a`. -/
def execLdStVx (x : Nibble) (s : State) : Host.Outcome State Fault Refusal := complete (s.setSt (s.getV x))

/-- R265: `I <- (I + zext_16(a)) mod 2^16`, no flag (D24). -/
def execAddIVx (x : Nibble) (s : State) : Host.Outcome State Fault Refusal :=
  complete (s.setI (s.i + zextByte (s.getV x)))

/-- R266: `I <- zext_16(nnn)`. -/
def execLdINnn (nnn : Addr12) (s : State) : Host.Outcome State Fault Refusal := complete (s.setI (zextAddr nnn))

/-- R267: `I <- FONT_BASE + 5 * (a & 0xF)`. -/
def execLdFVx (x : Nibble) (s : State) : Host.Outcome State Fault Refusal :=
  complete (s.setI (glyphAddress s.cfg (s.getV x)))

/-- R268: `wait_x <- x; key_snapshot <- K; mode <- AwaitKeyPress`; `V[x]` is written by the later capture. -/
def execLdVxK (x : Nibble) (s : State) : Host.Outcome State Fault Refusal :=
  complete (s.setWait .awaitKeyPress x s.keys)

end Sys2Proof.Machine
end

