-- ==== Sys2Proof/Machine/Transfer.lean ====
section
/-! DEFINITION. Memory transfers (44_key_timer_index.md R269-R271). `I` is never changed (D16); the whole range is
checked before any byte or register is written (R73). -/

namespace Sys2Proof.Machine

/-- R269: the decimal digits of `V[x]` at `I`, `I+1`, `I+2`. -/
def execLdBVx (x : Nibble) (s : State) : Host.Outcome State Fault Refusal :=
  match firstOutOfRange s.i.toNat 3 with
  | some a => raiseIn (.ldBVx x) .outOfBoundsAccess (some a) s
  | none => complete (s.writeBytes s.i.toNat (bcdDigits (s.getV x)))

/-- R270: `V[0]..V[x]` to `Mem[I..I+x]`. -/
def execLdMemVx (x : Nibble) (s : State) : Host.Outcome State Fault Refusal :=
  match firstOutOfRange s.i.toNat (x.toNat + 1) with
  | some a => raiseIn (.ldMemVx x) .outOfBoundsAccess (some a) s
  | none => complete (s.writeBytes s.i.toNat (s.regBlock x))

/-- R271: `Mem[I..I+x]` to `V[0]..V[x]`. -/
def execLdVxMem (x : Nibble) (s : State) : Host.Outcome State Fault Refusal :=
  match firstOutOfRange s.i.toNat (x.toNat + 1) with
  | some a => raiseIn (.ldVxMem x) .outOfBoundsAccess (some a) s
  | none => complete (s.setRegs (s.loadBlock x))

end Sys2Proof.Machine
end

