-- ==== Sys2Proof/Machine/KeyWait.lean ====
section
/-! DEFINITION. The key capture (40_fetch_dispatch.md R137), the only transition while the mode is AwaitKeyPress. -/

namespace Sys2Proof.Machine

/-- `lowest_set(m)`: the index of the least significant 1 bit of a non-zero mask (R9). -/
def lowestSet (m : Word) : Byte := BitVec.ofNat 8 (((List.range 16).find? fun k => m.getLsbD k).getD 0)

/-- A capture writes only `V[wait_x]` and `mode` (R137). -/
def State.capture (s : State) (value : Byte) : State := (s.setV s.waitX value).setWait .running s.waitX s.keySnapshot

/-- R137 under `edge`: a key pressed now and not in the snapshot ends the wait; else the snapshot follows `K`. -/
def State.captureEdge (s : State) : State :=
  if s.keys &&& ~~~s.keySnapshot ≠ 0 then s.capture (lowestSet (s.keys &&& ~~~s.keySnapshot))
  else s.setWait s.mode s.waitX s.keys

/-- R137 under `level`: any pressed key ends the wait. -/
def State.captureLevel (s : State) : State := if s.keys ≠ 0 then s.capture (lowestSet s.keys) else s

/-- R137 under `snapshot`: the wait always ends; with no key pressed the value is NO_KEY_VALUE (D33). -/
def State.captureSnapshot (s : State) : State :=
  s.capture (if s.keys ≠ 0 then lowestSet s.keys else s.cfg.noKeyValue)

/-- `key_capture()` by `KEY_WAIT_MODE` (R137, D14). -/
def State.keyCapture (s : State) : State :=
  match s.cfg.keyWaitMode with
  | .edge => s.captureEdge
  | .level => s.captureLevel
  | .snapshot => s.captureSnapshot

end Sys2Proof.Machine
end

