-- ==== Sys2Proof/Machine/Entry.lean ====
section
/-! DEFINITION. The two step entry points (40_fetch_dispatch.md R130): `cycle()` (R131) and `execute(w)` (R132). -/

namespace Sys2Proof.Machine

/-- R134, R135: decode the word and run it; an unsupported word raises `UnsupportedOpcode` and changes nothing. -/
def dispatch (w : Word) (s : State) : Host.Outcome State Fault Refusal :=
  match decodeWord w with
  | .ok i => exec i s
  | .error _ => raise .unsupportedOpcode (some w) none s

/-- R132: the raw entry. In AwaitKeyPress the word is ignored and the step is a key capture. -/
def execute (w : Word) (s : State) : Host.Outcome State Fault Refusal :=
  match s.mode with
  | .awaitKeyPress => complete s.keyCapture
  | .running => dispatch w s

/-- R131 step 2: the fetch-range error; nothing is fetched and `pc` stays. -/
def raiseFetch (s : State) : Host.Outcome State Fault Refusal :=
  raise .outOfBoundsAccess none (some (max s.pc.toNat 4096)) s

/-- R131 steps 3 to 5: fetch, advance `pc` by 2, dispatch; an error reports the word's own address. -/
def fetchAndDispatch (s : State) : Host.Outcome State Fault Refusal :=
  mapNext (fun t => t.reportAt s.pc) (dispatch s.fetchWord (s.setPc (s.pc + 2)))

/-- R131: `cycle()`. -/
def cycle (s : State) : Host.Outcome State Fault Refusal :=
  match s.mode with
  | .awaitKeyPress => complete s.keyCapture
  | .running => if s.pc.toNat > 4094 then raiseFetch s else fetchAndDispatch s

/-- A state whose next `cycle()` fetches: Running, and `pc` at an address with a whole word (log 11). -/
def State.readyToFetch (s : State) : State :=
  (s.setWait .running s.waitX s.keySnapshot).setPc (if s.pc.toNat > 4094 then 0 else s.pc)

/-- The word placed where the next `cycle()` fetches it (log 11). -/
def State.placeWord (s : State) (w : Word) : State :=
  s.readyToFetch.writeBytes s.readyToFetch.pc.toNat (bytesOfWord w)

end Sys2Proof.Machine
end

