-- ==== Sys2Proof/Machine/Step.lean ====
section
/-! DEFINITION. The step is the primary entry `cycle()` (40_fetch_dispatch.md R130). -/

namespace Sys2Proof.Machine

/-- One step: one call of `cycle()` by the host (R130). Stepping on after an error is the host's remedy "skip" (R310). -/
def step (s : State) : Host.Outcome State Fault Refusal := cycle s

/-- The instruction whose bits are `w` (numbered as the opcode table numbers them), stored where `step` fetches next. It
stands for the host's `loadProgram` (log 11). -/
def State.withFetchWord (s : State) (nbits w : Nat) : State := s.placeWord (tableWord nbits w)

end Sys2Proof.Machine
end

