-- ==== Sys2Proof/Machine/HostOps.lean ====
section
/-! DEFINITION. The host's atomic operations (60_exceptions.md R312-R318). The host acts only between steps, in any mode
and order (R82, R312); `runHost` runs any schedule of its operations. -/

namespace Sys2Proof.Machine

/-- `reset()` (R340, R343): every element of R30 at its reset value, under the same parameters. The count of random
bytes drawn is not the machine's (log 6): it goes on, so that no draw is repeated after a reset. -/
def hostReset (s : State) : State := { State.resetWith s.cfg with draws := s.draws }

/-- `loadProgram(bytes, atAddress)` (R318): all the image or, past 4095, none of it and `OutOfBoundsAccess`. -/
def loadProgram (bytes : List Byte) (atAddress : Nat) (s : State) : Host.Outcome State Fault Refusal :=
  match firstOutOfRange atAddress bytes.length with
  | some a => raise .outOfBoundsAccess none (some a) s
  | none => complete (s.writeBytes atAddress bytes)

/-- `loadProgram(bytes)` at the default address `LOAD_ADDRESS` (R318). -/
def loadProgramDefault (bytes : List Byte) (s : State) : Host.Outcome State Fault Refusal :=
  loadProgram bytes s.cfg.loadAddress.val s

/-- `setKeyState(k, pressed)`: `K[k] <- (if pressed then 1 else 0)`, nothing else (R315). The key is typed 0..15 (D27). -/
def setKeyState (k : Fin 16) (pressed : Bool) (s : State) : State :=
  s.setKeys (if pressed then s.keys ||| (1#16 <<< k.val) else s.keys &&& ~~~(1#16 <<< k.val))

/-- One decrement, floored at zero (R313). -/
def tickDown (b : Byte) : Byte := if b = 0 then 0 else b - 1

/-- `tickTimers()` (R313), in either mode (D31). -/
def tickTimers (s : State) : State := (s.setDt (tickDown s.dt)).setSt (tickDown s.st)

/-- `setPC(v)`: `pc <- v mod 2^16` (R312, D28). -/
def hostSetPc (v : Nat) (s : State) : State := s.setPc (BitVec.ofNat 16 v)

/-- `getKeyState()` (R315). -/
def getKeyState (s : State) : Word := s.keys

/-- `getDisplay()` (R316). -/
def getDisplay (s : State) : Display := s.pix

/-- The flat view of the display: pixel `(c, r)` at index `r * 64 + c` (R316, D26). -/
def displayFlat (s : State) : Vector Bool 2048 :=
  Vector.ofFn fun j : Fin 2048 => s.pix[j.val / 64][j.val % 64]

/-- `getSoundTimer()` (R312). -/
def getSoundTimer (s : State) : Byte := s.st

/-- The sound output: `ST > 0` (R314). -/
def soundOn (s : State) : Bool := decide (s.st.toNat > 0)

/-- `getMode()` (R312). -/
def getMode (s : State) : Mode := s.mode

/-- `getPC()` (R312, D28). -/
def getPc (s : State) : Word := s.pc

/-- `getState()`: a read-only copy (R312, D28). -/
def getState (s : State) : State := s

/-- The operations of R312 that can change the machine. -/
inductive HostOp
  | reset
  | loadProgram (bytes : List Byte) (atAddress : Nat)
  | cycle
  | execute (w : Word)
  | setKeyState (k : Fin 16) (pressed : Bool)
  | tickTimers
  | setPc (v : Nat)
  deriving DecidableEq, Repr

/-- One host operation as one atomic transition (R82). -/
def hostStep (op : HostOp) (s : State) : Host.Outcome State Fault Refusal :=
  match op with
  | .reset => .next (hostReset s)
  | .loadProgram bytes a => loadProgram bytes a s
  | .cycle => step s
  | .execute w => execute w s
  | .setKeyState k p => .next (setKeyState k p s)
  | .tickTimers => .next (tickTimers s)
  | .setPc v => .next (hostSetPc v s)

/-- A host schedule, in order (R312: a model quantifies over all of them). -/
def runHost : List HostOp → State → Host.Outcome State Fault Refusal
  | [], s => .next s
  | op :: ops, s =>
    match hostStep op s with
    | .next t => runHost ops t
    | .fault r => .fault r
    | .refused r => .refused r

end Sys2Proof.Machine
end

