-- ==== Sys2Proof/Safety.lean ====
section
/-! DEFINITION. The terms the statements use: the pieces of state and what it means to leave one unchanged, the
invariant, what a sprite covers, and runs without an error. -/

namespace Sys2Proof.Machine

/-- The pieces of state a frame speaks of: every element of R30, and the model's parameters and draw count. The step's
result is none of them: every step writes it. -/
inductive Piece
  | memory
  | registers
  | pc
  | index
  | stack
  | delayTimer
  | soundTimer
  | keys
  | display
  | keyWait
  | parameters
  | draws
  deriving DecidableEq, Repr

/-- The piece is the same in both states. Memory is compared byte by byte, registers one by one, the display pixel by
pixel. -/
def Piece.same (p : Piece) (s t : State) : Prop :=
  match p with
  | .memory => ∀ a : Nat, t.readByte a = s.readByte a
  | .registers => ∀ j : Nibble, t.getV j = s.getV j
  | .pc => t.pc = s.pc
  | .index => t.i = s.i
  | .stack => t.stack = s.stack ∧ t.sp = s.sp
  | .delayTimer => t.dt = s.dt
  | .soundTimer => t.st = s.st
  | .keys => t.keys = s.keys
  | .display => ∀ (c : Fin 64) (r : Fin 32), t.pix.get c r = s.pix.get c r
  | .keyWait => t.mode = s.mode ∧ t.waitX = s.waitX ∧ t.keySnapshot = s.keySnapshot
  | .parameters => t.cfg = s.cfg
  | .draws => t.draws = s.draws

/-- Every piece but the listed ones is the same. -/
def KeepsAllBut (changed : List Piece) (s t : State) : Prop := ∀ p : Piece, p ∉ changed → p.same s t

/-- The invariant of the machine: memory in its canonical form, the stack of its fixed capacity with the depth counter
in range (R35), the parameters admissible (R7). -/
structure State.Inv (s : State) : Prop where
  memoryWf : Memory.wf (resetByte s.cfg) s.mem
  stackLength : s.stack.length = s.cfg.stackDepth
  depthInRange : s.sp ≤ s.cfg.stackDepth
  admissible : s.cfg.Admissible

/-- A sprite bit at unreduced column `u` and row `v` lands on pixel `(c, r)` (R232). -/
def landsOn (edge : DrawEdge) (u v : Nat) (c : Fin 64) (r : Fin 32) : Prop :=
  match edge with
  | .wrap => c.val = u % 64 ∧ r.val = v % 32
  | .clip => c.val = u ∧ r.val = v

/-- Some 1-bit of the `n`-row sprite at `Mem[I]`, drawn at `(V[x], V[y])`, lands on pixel `(c, r)`; bit 7 is the
leftmost (R231). -/
def SpriteCovers (s : State) (x y n : Nibble) (c : Fin 64) (r : Fin 32) : Prop :=
  ∃ k j : Nat, k < n.toNat ∧ j < 8 ∧ (s.readByte (s.i.toNat + k)).getLsbD (7 - j) = true ∧
    landsOn s.cfg.drawEdge ((s.getV x).toNat + j) ((s.getV y).toNat + k) c r

/-- `k` is the lowest 1 bit of `m` (R9 `lowest_set`). -/
def IsLowestSet (m : Word) (k : Nat) : Prop := k < 16 ∧ m.getLsbD k = true ∧ ∀ j < k, m.getLsbD j = false

/-- A word outside R104's rows and R105's family 0: 30_encoding.md R106 to R109. -/
def UnsupportedWord (w : Word) : Prop :=
  (w.toNat / 4096 = 0x5 ∧ w.toNat % 16 ≠ 0) ∨
  (w.toNat / 4096 = 0x8 ∧ w.toNat % 16 ∈ [0x8, 0x9, 0xA, 0xB, 0xC, 0xD, 0xF]) ∨
  (w.toNat / 4096 = 0x9 ∧ w.toNat % 16 ≠ 0) ∨
  (w.toNat / 4096 = 0xE ∧ w.toNat % 256 ∉ [0x9E, 0xA1]) ∨
  (w.toNat / 4096 = 0xF ∧ w.toNat % 256 ∉ [0x07, 0x0A, 0x15, 0x18, 0x1E, 0x29, 0x33, 0x55, 0x65])

/-- Instruction `i` takes error `kind` (R304, R305): a next state with the report as its result, nothing else changed. -/
def RaisesError (i : Instr) (kind : ErrorKind) (addr : Option Nat) (s : State) : Prop :=
  ∃ t, exec i s = .next t ∧
    t.result = .error { kind := kind, opcode := some (encode i), pc := s.pc, addr := addr } ∧ KeepsAllBut [] s t

/-- From `s` to `t` the key capture stored `value` in `V[wait_x]` and ended the wait, and wrote nothing else of the
registers and the wait state (R137). -/
def CapturedValue (s t : State) (value : Nat) : Prop :=
  t.mode = .running ∧ (t.getV s.waitX).toNat = value ∧ (∀ j, j ≠ s.waitX → t.getV j = s.getV j) ∧
    t.waitX = s.waitX ∧ t.keySnapshot = s.keySnapshot

/-- From `s` to `t` the wait went on with the snapshot now `snapshot`, and no register was written (R137). -/
def StillWaiting (s t : State) (snapshot : Word) : Prop :=
  t.mode = .awaitKeyPress ∧ (∀ j, t.getV j = s.getV j) ∧ t.waitX = s.waitX ∧ t.keySnapshot = snapshot

/-- The byte at `a`, as a number, once the `count` bytes `new 0`, `new 1`, … stand from `base` upwards over the memory of
`s`. -/
def byteAfterStore (s : State) (base count : Nat) (new : Nat → Nat) (a : Nat) : Nat :=
  if base ≤ a ∧ a < base + count then new (a - base) else (s.readByte a).toNat

/-- The word at the `pc` of `s` after that store, the byte at the lower address the more significant (R74). -/
def wordAfterStore (s : State) (base count : Nat) (new : Nat → Nat) : Nat :=
  byteAfterStore s base count new s.pc.toNat * 256 + byteAfterStore s base count new (s.pc.toNat + 1)

/-- `k` steps that all return `Ok`: a safe run, one in which the host is never handed an error. -/
def OkRun : Nat → State → State → Prop
  | 0, s, t => s = t
  | k + 1, s, t => ∃ u, step s = .next u ∧ u.result = .ok ∧ OkRun k u t

end Sys2Proof.Machine
end

