-- ==== Sys2Proof/Certificates/Slice0/Obligations.lean ====
section
/-! DEFINITION. The statements for the provers. Each docstring names the rule it formalises; where a rule rests on one of
the spec's own decisions D<n> (92_eei_decisions.md) the docstring says so, and the statement's basis is 'derived'.
`KeepsAllBut l s t` is the frame: every piece of state outside `l` is the same. -/

open Sys2Proof Sys2Proof.Machine

/-! ## Reset -/

/-- R340 (the spec's own decision D21; glyphs and load address by D18, D19): every element of R30 after reset, for every
choice of the parameters; `reset()` from any state gives the same; the defaults of R7, the glyph table of R77 whole (the
default load address, font base and glyphs are the spec's general knowledge, log 13). That `reset()` keeps the draw count
and answers `Ok` is the model's choice (log 6, log 2). -/
def Obligations.ResetLeavesTheStatedValues : Prop :=
  (∀ c : Config,
    (∀ a : Nat, ¬(c.fontBase.val ≤ a ∧ a < c.fontBase.val + 80) → (State.resetWith c).readByte a = 0) ∧
    (∀ (g : Fin 16) (r : Fin 5),
      (State.resetWith c).readByte (c.fontBase.val + 5 * g.val + r.val) = c.fontGlyphs[g][r]) ∧
    (∀ j : Nibble, (State.resetWith c).getV j = 0) ∧
    (State.resetWith c).pc.toNat = c.loadAddress.val ∧ (State.resetWith c).i = 0 ∧
    (State.resetWith c).sp = 0 ∧ (State.resetWith c).stack.length = c.stackDepth ∧
    (∀ w ∈ (State.resetWith c).stack, w = 0) ∧
    (State.resetWith c).dt = 0 ∧ (State.resetWith c).st = 0 ∧ (State.resetWith c).keys = 0 ∧
    (∀ (x : Fin 64) (y : Fin 32), (State.resetWith c).pix.get x y = false) ∧
    (State.resetWith c).mode = .running ∧ (State.resetWith c).waitX = 0 ∧ (State.resetWith c).keySnapshot = 0 ∧
    (State.resetWith c).cfg = c) ∧
  (∀ s : State, KeepsAllBut [.draws] (State.resetWith s.cfg) (hostReset s) ∧ (hostReset s).result = .ok) ∧
  State.reset = State.resetWith Config.default ∧
  Config.default.stackDepth = 16 ∧ Config.default.loadAddress.val = 0x200 ∧ Config.default.fontBase.val = 0 ∧
  Config.default.drawEdge = .wrap ∧ Config.default.keyWaitMode = .edge ∧
  Config.default.fontGlyphs.toList.map Vector.toList =
    [[0xF0, 0x90, 0x90, 0x90, 0xF0], [0x20, 0x60, 0x20, 0x20, 0x70], [0xF0, 0x10, 0xF0, 0x80, 0xF0],
      [0xF0, 0x10, 0xF0, 0x10, 0xF0]] ++
    [[0x90, 0x90, 0xF0, 0x10, 0x10], [0xF0, 0x80, 0xF0, 0x10, 0xF0], [0xF0, 0x80, 0xF0, 0x90, 0xF0],
      [0xF0, 0x10, 0x20, 0x40, 0x40]] ++
    [[0xF0, 0x90, 0xF0, 0x90, 0xF0], [0xF0, 0x90, 0xF0, 0x10, 0xF0], [0xF0, 0x90, 0xF0, 0x90, 0x90],
      [0xE0, 0x90, 0xE0, 0x90, 0xE0]] ++
    [[0xF0, 0x80, 0x80, 0x80, 0xF0], [0xE0, 0x90, 0x90, 0x90, 0xE0], [0xF0, 0x80, 0xF0, 0x80, 0xF0],
      [0xF0, 0x80, 0xF0, 0x80, 0x80]]

/-- The invariant holds after reset, for every admissible choice of the parameters (R30, R35, R340). -/
def Obligations.ResetMeetsTheInvariant : Prop :=
  (∀ c : Config, c.Admissible → (State.resetWith c).Inv) ∧ State.reset.Inv

/-! ## Fetch, decode, dispatch -/

/-- R101: the fields of a word as numbers, `x` being `(w >> 8) & 0xF`. -/
def Obligations.WordFieldsAreTheBitRanges : Prop :=
  ∀ w : Word,
    w.opField.toNat = w.toNat / 4096 ∧ w.xField.toNat = w.toNat / 256 % 16 ∧ w.yField.toNat = w.toNat / 16 % 16 ∧
    w.nField.toNat = w.toNat % 16 ∧ w.kkField.toNat = w.toNat % 256 ∧ w.nnnField.toNat = w.toNat % 4096 ∧
    w.xField = ((w >>> 8) &&& 0xF#16).setWidth 4

/-- R104: words written out from the opcode map decode to the instructions they stand for (the first five are the
source's own words; the others are the spec's general-knowledge patterns, log 13). -/
def Obligations.SampleWordsDecode : Prop :=
  decodeBytes [0x00, 0xE0] = .ok (.cls, []) ∧
  decodeBytes [0x60, 0x05] = .ok (.ldVxKk 0 0x05, []) ∧
  decodeBytes [0x70, 0x0A] = .ok (.addVxKk 0 0x0A, []) ∧
  decodeBytes [0x80, 0x14] = .ok (.addVxVy 0 1, []) ∧
  decodeBytes [0xD0, 0x05] = .ok (.drwVxVyN 0 0 5, []) ∧
  decodeBytes [0x22, 0x0E] = .ok (.callNnn 0x20E, []) ∧
  decodeBytes [0x8A, 0xB7] = .ok (.subnVxVy 0xA 0xB, []) ∧
  decodeBytes [0xE0, 0x9E] = .ok (.skpVx 0, []) ∧
  decodeBytes [0xF2, 0x65] = .ok (.ldVxMem 2, []) ∧
  decodeBytes [0x80, 0x08] = .error (.unsupportedFamily8 0x8008)

/-- Decode and encode agree on every well-formed instruction, with every operand at every value, as a word and as the
bytes memory holds (R102, R104, R105, R74). -/
def Obligations.DecodeInvertsEncode : Prop :=
  ∀ i : Instr, i.wellFormed = true →
    decodeWord (encode i) = .ok i ∧ ∀ rest : List Byte, decodeBytes (encodeBytes i ++ rest) = .ok (i, rest)

/-- The other direction (R102, R104): a word that decodes is the encoding of its instruction, which is well formed. For the
words 8xy6 and 8xyE, whose `y` field R102 calls ignored, this holds because the model's terms keep that field: the model's
choice, log 8. -/
def Obligations.DecodedWordIsItsEncoding : Prop :=
  ∀ (w : Word) (i : Instr), decodeWord w = .ok i → encode i = w ∧ i.wellFormed = true

/-- R104: a word decodes to the row whose `(w & mask) = match`, and no other row matches it but SYS. -/
def Obligations.DecodeSelectsTheMatchingRow : Prop :=
  ∀ (w : Word) (i : Instr), decodeWord w = .ok i →
    matchesRow w i ∧ ∀ j : Instr, matchesRow w j → tableRow j = tableRow i ∨ ∃ nnn, j = .sys nnn

/-- R106 to R110: the decoder rejects exactly the words of families 5, 8, 9, E and F that have no row (strict decode of
5xyn and 9xyn is the spec's decision D8). -/
def Obligations.DecoderRejectsExactlyUnsupportedWords : Prop :=
  ∀ w : Word, (∃ e, decodeWord w = .error e) ↔ UnsupportedWord w

/-- R131, R132, R134: the bytes at `pc` decode to `i`, so the step is `i`'s execute phase at `pc + 2`; an error it
raises reports the word's own address. Under the raw entry it is the execute phase as it stands. -/
def Obligations.StepRunsTheDecodedInstruction : Prop :=
  (∀ (s : State) (i : Instr), s.mode = .running → s.pc.toNat ≤ 4094 →
    decodeBytes [s.readByte s.pc.toNat, s.readByte (s.pc.toNat + 1)] = .ok (i, []) →
      step s = mapNext (fun t => t.reportAt s.pc) (exec i (s.setPc (s.pc + 2)))) ∧
  (∀ (t : State) (a : Word), t.result = .ok → t.reportAt a = t) ∧
  (∀ (t : State) (a : Word) (r : ErrorReport), t.result = .error r →
    t.reportAt a = t.setResult (.error { r with pc := a })) ∧
  (∀ (s : State) (w : Word) (i : Instr), s.mode = .running → decodeWord w = .ok i → execute w s = exec i s)

/-- R131 step 2 (the fetch-time check is the spec's decision D3): a fetch above 4094 is OutOfBoundsAccess, reported with
the first address past memory that it would touch, and nothing changes. -/
def Obligations.FetchPastMemoryRaises : Prop :=
  ∀ s : State, s.mode = .running → 4094 < s.pc.toNat →
    ∃ t, step s = .next t ∧ KeepsAllBut [] s t ∧
      t.result = .error { kind := .outOfBoundsAccess, opcode := none, pc := s.pc,
                          addr := some (if 4095 < s.pc.toNat then s.pc.toNat else 4096) }

/-- R135: an unsupported word raises UnsupportedOpcode under both entries; under `cycle` the fetch advance stands. -/
def Obligations.UnsupportedWordRaises : Prop :=
  ∀ (s : State) (w : Word), s.mode = .running → UnsupportedWord w →
    (∃ t, execute w s = .next t ∧ KeepsAllBut [] s t ∧
      t.result = .error { kind := .unsupportedOpcode, opcode := some w, pc := s.pc, addr := none }) ∧
    (s.pc.toNat ≤ 4094 → (s.readByte s.pc.toNat).toNat * 256 + (s.readByte (s.pc.toNat + 1)).toNat = w.toNat →
      ∃ t, step s = .next t ∧ KeepsAllBut [.pc] s t ∧ t.pc = s.pc + 2 ∧
        t.result = .error { kind := .unsupportedOpcode, opcode := some w, pc := s.pc, addr := none })

/-- R136 (the spec's decision D7): SYS takes UnsupportedOpcode, code 1, and has no other effect. -/
def Obligations.SysTakesUnsupportedOpcode : Prop :=
  ∀ (nnn : Addr12) (s : State),
    ∃ t, exec (.sys nnn) s = .next t ∧ KeepsAllBut [] s t ∧ ∃ r, t.result = .error r ∧
      r.kind = .unsupportedOpcode ∧ r.code = 1 ∧ r.opcode = some (nnn.setWidth 16) ∧ r.pc = s.pc ∧ r.addr = none

/-! ## Rules of the whole machine -/

/-- R141: a step, the raw entry, every execute phase and every host operation answer a next state. -/
def Obligations.EveryOperationAnswersANextState : Prop :=
  (∀ s : State, ∃ t, step s = .next t) ∧ (∀ (w : Word) (s : State), ∃ t, execute w s = .next t) ∧
  (∀ (i : Instr) (s : State), ∃ t, exec i s = .next t) ∧ (∀ (op : HostOp) (s : State), ∃ t, hostStep op s = .next t)

/-- Every step keeps the invariant: canonical memory, the stack's fixed capacity, the depth counter in range. -/
def Obligations.StepKeepsTheInvariant : Prop := ∀ s t : State, s.Inv → step s = .next t → t.Inv

/-- Every host schedule, steps and host operations in any order, keeps the invariant (R312). -/
def Obligations.HostScheduleKeepsTheInvariant : Prop :=
  ∀ (ops : List HostOp) (s t : State), s.Inv → runHost ops s = .next t → t.Inv

/-- R304, R305 (precision is the spec's decision D5): an execute phase that raises changes nothing and reports its own
word and `pc`; a step that raises changes at most `pc`, by the fetch advance, and reports the word's address. -/
def Obligations.ErrorsArePrecise : Prop :=
  (∀ (i : Instr) (s t : State) (r : ErrorReport), exec i s = .next t → t.result = .error r →
    KeepsAllBut [] s t ∧ r.opcode = some (encode i) ∧ r.pc = s.pc ∧
    (r.addr = none ↔ r.kind ≠ .outOfBoundsAccess)) ∧
  (∀ (s t : State) (r : ErrorReport), step s = .next t → t.result = .error r →
    KeepsAllBut [.pc] s t ∧ s.mode = .running ∧ r.pc = s.pc ∧
    ((r.opcode = none ∧ t.pc = s.pc) ∨ (r.opcode = some s.fetchWord ∧ t.pc = s.pc + 2)))

/-- R300 to R303, R306: an execute phase raises only these errors, in these cases; NotImplemented never. (That each case
does raise is said at its instruction. Cases and addresses rest on the spec's decisions D2, D5, D7, D15, D25.) -/
def Obligations.ErrorsAriseOnlyInTheStatedCases : Prop :=
  ∀ (i : Instr) (s t : State) (r : ErrorReport), exec i s = .next t → t.result = .error r →
    (r.kind = .unsupportedOpcode ∧ ∃ nnn, i = .sys nnn) ∨
    (r.kind = .stackOverflow ∧ s.cfg.stackDepth ≤ s.sp ∧ ∃ nnn, i = .callNnn nnn) ∨
    (r.kind = .stackUnderflow ∧ s.sp = 0 ∧ i = .ret) ∨
    (r.kind = .outOfBoundsAccess ∧
      ((∃ x y n, i = .drwVxVyN x y n ∧ n ≠ 0 ∧ 4095 < s.i.toNat + n.toNat - 1 ∧ r.addr = some (max s.i.toNat 4096)) ∨
       (∃ x, i = .ldBVx x ∧ 4095 < s.i.toNat + 2 ∧ r.addr = some (max s.i.toNat 4096)) ∨
       (∃ x, (i = .ldMemVx x ∨ i = .ldVxMem x) ∧ 4095 < s.i.toNat + x.toNat ∧ r.addr = some (max s.i.toNat 4096)) ∨
       (∃ x, (i = .skpVx x ∨ i = .sknpVx x) ∧ 15 < (s.getV x).toNat ∧ r.addr = some (s.getV x).toNat)))

/-- R140: `LD Vx, K` takes Running to AwaitKeyPress, a capture takes AwaitKeyPress to Running, reset sets Running, and
nothing else writes the mode: no other instruction, no error, no other host operation. What a waiting step keeps (fourth
clause) is R137, the spec's decision D14 (log 17); the reset and `setPC` clauses rest on its decisions D21 and D28 (log 18). -/
def Obligations.ModeChangesOnlyAtWaitAndCapture : Prop :=
  (∀ (x : Nibble) (s t : State), exec (.ldVxK x) s = .next t → t.mode = .awaitKeyPress) ∧
  (∀ (i : Instr) (s t : State), exec i s = .next t → t.mode ≠ s.mode → ∃ x, i = .ldVxK x) ∧
  (∀ s t : State, step s = .next t → s.mode = .running → t.mode ≠ s.mode →
    t.result = .ok ∧ ∃ x, decodeWord s.fetchWord = .ok (.ldVxK x)) ∧
  (∀ (s t : State) (w : Word), s.mode = .awaitKeyPress → step s = .next t ∨ execute w s = .next t →
    (∃ value, CapturedValue s t value) ∨ ∃ snapshot, StillWaiting s t snapshot) ∧
  (∀ (s t : State) (r : ErrorReport), step s = .next t → t.result = .error r → t.mode = s.mode) ∧
  (∀ s : State, (hostReset s).mode = .running) ∧
  (∀ (s t : State) (bytes : List Byte) (a : Nat), loadProgram bytes a s = .next t → t.mode = s.mode) ∧
  (∀ (s : State) (k : Fin 16) (p : Bool) (v : Nat),
    (setKeyState k p s).mode = s.mode ∧ (tickTimers s).mode = s.mode ∧ (hostSetPc v s).mode = s.mode)

/-- R30's "owner of writes", R31, R33, R35 to R39, R71: which instructions write which piece, with a clause for every piece.
The keyboard and the parameters are written by none, nor by any step. The draw count and the parameters are the model's own
fields (log 6, log 3), so the clauses on them are the model's, not the spec's. -/
def Obligations.EachPieceHasItsOnlyWriters : Prop :=
  (∀ (i : Instr) (s t : State), exec i s = .next t →
    (¬Piece.same .memory s t → ∃ x, i = .ldBVx x ∨ i = .ldMemVx x) ∧
    (¬Piece.same .registers s t → (∃ x kk, i = .ldVxKk x kk ∨ i = .addVxKk x kk ∨ i = .rndVxKk x kk) ∨
      (∃ x y, i = .ldVxVy x y ∨ i = .orVxVy x y ∨ i = .andVxVy x y ∨ i = .xorVxVy x y ∨ i = .addVxVy x y ∨
        i = .subVxVy x y ∨ i = .shrVx x y ∨ i = .subnVxVy x y ∨ i = .shlVx x y) ∨
      (∃ x y n, i = .drwVxVyN x y n) ∨ ∃ x, i = .ldVxDt x ∨ i = .ldVxMem x) ∧
    (¬Piece.same .display s t → i = .cls ∨ ∃ x y n, i = .drwVxVyN x y n) ∧
    (¬Piece.same .index s t → (∃ nnn, i = .ldINnn nnn) ∨ ∃ x, i = .addIVx x ∨ i = .ldFVx x) ∧
    (¬Piece.same .stack s t → i = .ret ∨ ∃ nnn, i = .callNnn nnn) ∧
    (¬Piece.same .delayTimer s t → ∃ x, i = .ldDtVx x) ∧
    (¬Piece.same .soundTimer s t → ∃ x, i = .ldStVx x) ∧
    (¬Piece.same .keyWait s t → ∃ x, i = .ldVxK x) ∧
    (¬Piece.same .draws s t → ∃ x kk, i = .rndVxKk x kk) ∧
    (¬Piece.same .pc s t → i = .ret ∨ (∃ nnn, i = .jpNnn nnn ∨ i = .callNnn nnn ∨ i = .jpV0Nnn nnn) ∨
      (∃ x kk, i = .seVxKk x kk ∨ i = .sneVxKk x kk) ∨ (∃ x y, i = .seVxVy x y ∨ i = .sneVxVy x y) ∨
      ∃ x, i = .skpVx x ∨ i = .sknpVx x) ∧
    Piece.same .keys s t ∧ Piece.same .parameters s t) ∧
  (∀ s t : State, step s = .next t → Piece.same .keys s t ∧ Piece.same .parameters s t)

/-- R32, R347: VF changes only by the six flag instructions, or as a named destination, or by the block load of all
sixteen registers. -/
def Obligations.FlagRegisterHasItsOnlyWriters : Prop :=
  ∀ (i : Instr) (s t : State), exec i s = .next t → t.getV 0xF#4 ≠ s.getV 0xF#4 →
    (∃ x y, i = .addVxVy x y ∨ i = .subVxVy x y ∨ i = .subnVxVy x y ∨ i = .shrVx x y ∨ i = .shlVx x y) ∨
    (∃ x y n, i = .drwVxVyN x y n) ∨
    (∃ kk, i = .ldVxKk 0xF#4 kk ∨ i = .addVxKk 0xF#4 kk ∨ i = .rndVxKk 0xF#4 kk) ∨
    (∃ y, i = .ldVxVy 0xF#4 y ∨ i = .orVxVy 0xF#4 y ∨ i = .andVxVy 0xF#4 y ∨ i = .xorVxVy 0xF#4 y) ∨
    i = .ldVxDt 0xF#4 ∨ i = .ldVxMem 0xF#4

/-- Memory's canonical form is canonical: two memories in that form that read alike everywhere are the same list (so
that equal memories are equal data; the form is the model's own, log 5). -/
def Obligations.CanonicalMemoriesReadingAlikeAreEqual : Prop :=
  ∀ (unlisted : Nat → Byte) (m n : Memory), Memory.wf unlisted m → Memory.wf unlisted n →
    (∀ a, Memory.read unlisted m a = Memory.read unlisted n a) → m = n

/-! ## Control flow -/

/-- R160, R167: JP sets `pc` to `nnn`, JP V0 to `nnn + V[0]`; both always complete. -/
def Obligations.JumpsSetPc : Prop :=
  ∀ (nnn : Addr12) (s : State),
    (∃ t, exec (.jpNnn nnn) s = .next t ∧ t.result = .ok ∧ t.pc.toNat = nnn.toNat ∧ KeepsAllBut [.pc] s t) ∧
    (∃ t, exec (.jpV0Nnn nnn) s = .next t ∧ t.result = .ok ∧ t.pc.toNat = nnn.toNat + (s.getV 0).toNat ∧
      KeepsAllBut [.pc] s t)

/-- R161 (that the pushed value is the `pc` of the execute phase is the spec's decision D32): CALL pushes `pc` and jumps;
with the stack full it takes StackOverflow. -/
def Obligations.CallPushesAndJumps : Prop :=
  ∀ (nnn : Addr12) (s : State), s.Inv →
    (s.sp < s.cfg.stackDepth →
      ∃ t, exec (.callNnn nnn) s = .next t ∧ t.result = .ok ∧ t.pc.toNat = nnn.toNat ∧ t.sp = s.sp + 1 ∧
        t.stack[s.sp]? = some s.pc ∧ (∀ k, k ≠ s.sp → t.stack[k]? = s.stack[k]?) ∧ KeepsAllBut [.pc, .stack] s t) ∧
    (s.sp = s.cfg.stackDepth → RaisesError (.callNnn nnn) .stackOverflow none s)

/-- R162 (that the popped slot keeps its value is the spec's decision D30): RET pops the top slot into `pc`; with the
stack empty it takes StackUnderflow. -/
def Obligations.RetPopsIntoPc : Prop :=
  ∀ s : State, s.Inv →
    (0 < s.sp → ∃ t, exec .ret s = .next t ∧ t.result = .ok ∧ s.stack[s.sp - 1]? = some t.pc ∧ t.sp = s.sp - 1 ∧
      t.stack = s.stack ∧ KeepsAllBut [.pc, .stack] s t) ∧
    (s.sp = 0 → RaisesError .ret .stackUnderflow none s)

/-- R162: a RET at the depth a CALL left, with the slots below it as they were, comes back to the CALL's `pc` and depth,
whatever else ran between. -/
def Obligations.RetComesBackFromCall : Prop :=
  ∀ (nnn : Addr12) (s t u v : State), s.Inv → exec (.callNnn nnn) s = .next t → t.result = .ok →
    u.sp = t.sp → (∀ k, k < t.sp → u.stack[k]? = t.stack[k]?) → exec .ret u = .next v →
    v.result = .ok ∧ v.pc = s.pc ∧ v.sp = s.sp

/-- R163 to R166: the skip family advances `pc` by 2 more, mod 2^16, exactly when its condition holds. -/
def Obligations.SkipsFollowTheirCondition : Prop :=
  ∀ (x y : Nibble) (kk : Byte) (s : State),
    (∃ t, exec (.seVxKk x kk) s = .next t ∧ t.result = .ok ∧ KeepsAllBut [.pc] s t ∧
      t.pc.toNat = if s.getV x = kk then (s.pc.toNat + 2) % 65536 else s.pc.toNat) ∧
    (∃ t, exec (.sneVxKk x kk) s = .next t ∧ t.result = .ok ∧ KeepsAllBut [.pc] s t ∧
      t.pc.toNat = if s.getV x ≠ kk then (s.pc.toNat + 2) % 65536 else s.pc.toNat) ∧
    (∃ t, exec (.seVxVy x y) s = .next t ∧ t.result = .ok ∧ KeepsAllBut [.pc] s t ∧
      t.pc.toNat = if s.getV x = s.getV y then (s.pc.toNat + 2) % 65536 else s.pc.toNat) ∧
    (∃ t, exec (.sneVxVy x y) s = .next t ∧ t.result = .ok ∧ KeepsAllBut [.pc] s t ∧
      t.pc.toNat = if s.getV x ≠ s.getV y then (s.pc.toNat + 2) % 65536 else s.pc.toNat)

/-- R260, R261 (the error above 15 is the spec's decision D15): SKP and SKNP skip by the state of key `V[x]`; above 15
they take OutOfBoundsAccess with that number. -/
def Obligations.KeySkipsFollowTheKeyboard : Prop :=
  ∀ (x : Nibble) (s : State),
    ((s.getV x).toNat ≤ 15 →
      (∃ t, exec (.skpVx x) s = .next t ∧ t.result = .ok ∧ KeepsAllBut [.pc] s t ∧
        t.pc.toNat = if s.keys.getLsbD (s.getV x).toNat = true then (s.pc.toNat + 2) % 65536 else s.pc.toNat) ∧
      (∃ t, exec (.sknpVx x) s = .next t ∧ t.result = .ok ∧ KeepsAllBut [.pc] s t ∧
        t.pc.toNat = if s.keys.getLsbD (s.getV x).toNat = false then (s.pc.toNat + 2) % 65536 else s.pc.toNat)) ∧
    (15 < (s.getV x).toNat →
      RaisesError (.skpVx x) .outOfBoundsAccess (some (s.getV x).toNat) s ∧
      RaisesError (.sknpVx x) .outOfBoundsAccess (some (s.getV x).toNat) s)

/-! ## Arithmetic and logic -/

/-- R191: every word `6xkk` is LD Vx, kk, and it sets `V[x]` to `kk`; VF changes only when `x = 0xF`. -/
def Obligations.LoadImmediateSetsRegister : Prop :=
  (∀ w : Word, w &&& 0xF000#16 = 0x6000#16 → decodeWord w = .ok (.ldVxKk w.xField w.kkField)) ∧
  (∀ (x : Nibble) (kk : Byte) (s : State),
    ∃ t, exec (.ldVxKk x kk) s = .next t ∧ t.result = .ok ∧ t.getV x = kk ∧
      (∀ j, j ≠ x → t.getV j = s.getV j) ∧ KeepsAllBut [.registers] s t)

/-- R192: every word `7xkk` is ADD Vx, kk, and it sets `V[x]` to the sum mod 2^8; VF is not written unless `x = 0xF`, and
then it receives the sum. -/
def Obligations.AddImmediateHasNoFlag : Prop :=
  (∀ w : Word, w &&& 0xF000#16 = 0x7000#16 → decodeWord w = .ok (.addVxKk w.xField w.kkField)) ∧
  (∀ (x : Nibble) (kk : Byte) (s : State),
    ∃ t, exec (.addVxKk x kk) s = .next t ∧ t.result = .ok ∧
      (t.getV x).toNat = ((s.getV x).toNat + kk.toNat) % 256 ∧
      (∀ j, j ≠ x → t.getV j = s.getV j) ∧ KeepsAllBut [.registers] s t)

/-- R193 to R196: LD, OR, AND and XOR give the bitwise result in `V[x]` and no flag: VF changes only as `V[x]`. -/
def Obligations.MovesAndLogicHaveNoFlag : Prop :=
  ∀ (x y : Nibble) (s : State),
    (∃ t, exec (.ldVxVy x y) s = .next t ∧ t.result = .ok ∧ t.getV x = s.getV y ∧
      (∀ j, j ≠ x → t.getV j = s.getV j) ∧ KeepsAllBut [.registers] s t) ∧
    (∃ t, exec (.orVxVy x y) s = .next t ∧ t.result = .ok ∧
      (∀ b : Nat, b < 8 → (t.getV x).getLsbD b = ((s.getV x).getLsbD b || (s.getV y).getLsbD b)) ∧
      (∀ j, j ≠ x → t.getV j = s.getV j) ∧ KeepsAllBut [.registers] s t) ∧
    (∃ t, exec (.andVxVy x y) s = .next t ∧ t.result = .ok ∧
      (∀ b : Nat, b < 8 → (t.getV x).getLsbD b = ((s.getV x).getLsbD b && (s.getV y).getLsbD b)) ∧
      (∀ j, j ≠ x → t.getV j = s.getV j) ∧ KeepsAllBut [.registers] s t) ∧
    (∃ t, exec (.xorVxVy x y) s = .next t ∧ t.result = .ok ∧
      (∀ b : Nat, b < 8 → (t.getV x).getLsbD b = Bool.xor ((s.getV x).getLsbD b) ((s.getV y).getLsbD b)) ∧
      (∀ j, j ≠ x → t.getV j = s.getV j) ∧ KeepsAllBut [.registers] s t)

/-- R197, with R190: VF is 1 exactly when `a + b > 255`, `V[x]` is the sum mod 256. For `x = 0xF` VF holds the flag and
the sum is lost: that clause is the spec's decision D9 (log 14). -/
def Obligations.AddSetsCarry : Prop :=
  ∀ (x y : Nibble) (s : State),
    ∃ t, exec (.addVxVy x y) s = .next t ∧ t.result = .ok ∧
      t.getV 0xF#4 = (if (s.getV x).toNat + (s.getV y).toNat > 255 then 1 else 0) ∧
      (x ≠ 0xF#4 → (t.getV x).toNat = ((s.getV x).toNat + (s.getV y).toNat) % 256) ∧
      (∀ j, j ≠ x → j ≠ 0xF#4 → t.getV j = s.getV j) ∧ KeepsAllBut [.registers] s t

/-- R198, R200, with R190: SUB and SUBN give the difference mod 256 and the strict no-borrow flag, 0 when the operands
are equal. For `x = 0xF` the flag wins: the spec's decision D9 (log 14). -/
def Obligations.SubtractSetsNoBorrow : Prop :=
  ∀ (x y : Nibble) (s : State),
    (∃ t, exec (.subVxVy x y) s = .next t ∧ t.result = .ok ∧
      t.getV 0xF#4 = (if (s.getV x).toNat > (s.getV y).toNat then 1 else 0) ∧
      (x ≠ 0xF#4 → (t.getV x).toNat = ((s.getV x).toNat + 256 - (s.getV y).toNat) % 256) ∧
      (∀ j, j ≠ x → j ≠ 0xF#4 → t.getV j = s.getV j) ∧ KeepsAllBut [.registers] s t) ∧
    (∃ t, exec (.subnVxVy x y) s = .next t ∧ t.result = .ok ∧
      t.getV 0xF#4 = (if (s.getV y).toNat > (s.getV x).toNat then 1 else 0) ∧
      (x ≠ 0xF#4 → (t.getV x).toNat = ((s.getV y).toNat + 256 - (s.getV x).toNat) % 256) ∧
      (∀ j, j ≠ x → j ≠ 0xF#4 → t.getV j = s.getV j) ∧ KeepsAllBut [.registers] s t)

/-- R199, R201, with R190: SHR and SHL shift `V[x]` by one and put the bit shifted out in VF; the `y` field, whatever it
is, is ignored. For `x = 0xF` the flag wins: the spec's decision D9 (log 14). -/
def Obligations.ShiftsSetTheBitShiftedOut : Prop :=
  ∀ (x y : Nibble) (s : State),
    (∃ t, exec (.shrVx x y) s = .next t ∧ t.result = .ok ∧ (t.getV 0xF#4).toNat = (s.getV x).toNat % 2 ∧
      (x ≠ 0xF#4 → (t.getV x).toNat = (s.getV x).toNat / 2) ∧
      (∀ j, j ≠ x → j ≠ 0xF#4 → t.getV j = s.getV j) ∧ KeepsAllBut [.registers] s t) ∧
    (∃ t, exec (.shlVx x y) s = .next t ∧ t.result = .ok ∧ (t.getV 0xF#4).toNat = (s.getV x).toNat / 128 ∧
      (x ≠ 0xF#4 → (t.getV x).toNat = (s.getV x).toNat * 2 % 256) ∧
      (∀ j, j ≠ x → j ≠ 0xF#4 → t.getV j = s.getV j) ∧ KeepsAllBut [.registers] s t)

/-- R202 (D23): RND puts a free byte masked by `kk` in `V[x]`: the byte is `Config.randomByte` at the draw count, of
which nothing is known; bits outside `kk` are 0; the next draw is another one (log 6). -/
def Obligations.RandomIsAMaskedFreeByte : Prop :=
  ∀ (x : Nibble) (kk : Byte) (s : State),
    ∃ t, exec (.rndVxKk x kk) s = .next t ∧ t.result = .ok ∧ t.getV x = Config.randomByte s.draws &&& kk ∧
      (∀ b : Nat, kk.getLsbD b = false → (t.getV x).getLsbD b = false) ∧ t.draws = s.draws + 1 ∧
      (∀ j, j ≠ x → t.getV j = s.getV j) ∧ KeepsAllBut [.registers, .draws] s t

/-! ## Display -/

/-- R230: the word 00E0 is CLS, and it zeroes all 2048 pixels and writes nothing else. -/
def Obligations.ClearZeroesTheGrid : Prop :=
  (∀ w : Word, w &&& 0xFFFF#16 = 0x00E0#16 → decodeWord w = .ok .cls) ∧
  (∀ s : State, ∃ t, exec .cls s = .next t ∧ t.result = .ok ∧
    (∀ (c : Fin 64) (r : Fin 32), t.pix.get c r = false) ∧ KeepsAllBut [.display] s t)

/-- R231, R232 (steps 1 and 2, `n = 0` and the edge rule are the spec's decisions D10, D13, D12, D11): DRW toggles exactly
the pixels a 1-bit of the sprite lands on; VF is 1 exactly when one of them was 1. With a sprite byte past 4095 it takes
OutOfBoundsAccess instead, with the lowest bad address. -/
def Obligations.DrawXorsTheSprite : Prop :=
  ∀ (x y n : Nibble) (s : State),
    (n = 0 ∨ s.i.toNat + n.toNat ≤ 4096 →
      ∃ t, exec (.drwVxVyN x y n) s = .next t ∧ t.result = .ok ∧
        (∀ (c : Fin 64) (r : Fin 32), SpriteCovers s x y n c r → t.pix.get c r = !s.pix.get c r) ∧
        (∀ (c : Fin 64) (r : Fin 32), ¬SpriteCovers s x y n c r → t.pix.get c r = s.pix.get c r) ∧
        ((∃ c r, SpriteCovers s x y n c r ∧ s.pix.get c r = true) → t.getV 0xF#4 = 1) ∧
        ((¬∃ c r, SpriteCovers s x y n c r ∧ s.pix.get c r = true) → t.getV 0xF#4 = 0) ∧
        (∀ j, j ≠ 0xF#4 → t.getV j = s.getV j) ∧ KeepsAllBut [.registers, .display] s t) ∧
    (n ≠ 0 → 4096 < s.i.toNat + n.toNat →
      RaisesError (.drwVxVyN x y n) .outOfBoundsAccess (some (max s.i.toNat 4096)) s)

/-- R233, the toggle law: the same sprite drawn twice in succession restores the display; the first VF says whether a
1-bit hit a pixel that was 1 before the first draw, the second whether one hit a pixel that was 0. -/
def Obligations.DrawingTwiceRestoresTheDisplay : Prop :=
  ∀ (x y n : Nibble) (s t u v : State),
    exec (.drwVxVyN x y n) s = .next t → t.result = .ok →
    u.getV x = s.getV x → u.getV y = s.getV y → u.i = s.i → (∀ a, u.readByte a = s.readByte a) → u.cfg = s.cfg →
    (∀ c r, u.pix.get c r = t.pix.get c r) → exec (.drwVxVyN x y n) u = .next v → v.result = .ok →
      (∀ c r, v.pix.get c r = s.pix.get c r) ∧
      (t.getV 0xF#4 = 1 ↔ ∃ c r, SpriteCovers s x y n c r ∧ s.pix.get c r = true) ∧
      (v.getV 0xF#4 = 1 ↔ ∃ c r, SpriteCovers s x y n c r ∧ s.pix.get c r = false)

/-- R234, the clear-then-draw law: after CLS, a DRW that does not raise leaves exactly the sprite's 1-bits set. -/
def Obligations.ClearThenDrawLeavesTheSprite : Prop :=
  ∀ (x y n : Nibble) (s t u : State), exec .cls s = .next t → exec (.drwVxVyN x y n) t = .next u → u.result = .ok →
    u.getV 0xF#4 = 0 ∧ ∀ (c : Fin 64) (r : Fin 32), u.pix.get c r = true ↔ SpriteCovers s x y n c r

/-! ## Timers, index register, key wait -/

/-- R262 to R264: the timers are read and written as they stand. -/
def Obligations.TimerMovesCopyOneByte : Prop :=
  ∀ (x : Nibble) (s : State),
    (∃ t, exec (.ldVxDt x) s = .next t ∧ t.result = .ok ∧ t.getV x = s.dt ∧
      (∀ j, j ≠ x → t.getV j = s.getV j) ∧ KeepsAllBut [.registers] s t) ∧
    (∃ t, exec (.ldDtVx x) s = .next t ∧ t.result = .ok ∧ t.dt = s.getV x ∧ KeepsAllBut [.delayTimer] s t) ∧
    (∃ t, exec (.ldStVx x) s = .next t ∧ t.result = .ok ∧ t.st = s.getV x ∧ KeepsAllBut [.soundTimer] s t)

/-- R265 to R267 (the 16-bit sum is the spec's decision D24, the glyph address D18): LD I, ADD I and LD F write `I`
alone; no flag, no memory access, no error. -/
def Obligations.IndexWritesSetI : Prop :=
  ∀ (x : Nibble) (nnn : Addr12) (s : State),
    (∃ t, exec (.ldINnn nnn) s = .next t ∧ t.result = .ok ∧ t.i.toNat = nnn.toNat ∧ KeepsAllBut [.index] s t) ∧
    (∃ t, exec (.addIVx x) s = .next t ∧ t.result = .ok ∧ t.i.toNat = (s.i.toNat + (s.getV x).toNat) % 65536 ∧
      KeepsAllBut [.index] s t) ∧
    (∃ t, exec (.ldFVx x) s = .next t ∧ t.result = .ok ∧
      t.i.toNat = s.cfg.fontBase.val + 5 * ((s.getV x).toNat % 16) ∧ KeepsAllBut [.index] s t)

/-- R268: LD Vx, K enters AwaitKeyPress with `wait_x = x` and the keyboard as snapshot; `V[x]` and `pc` stay. -/
def Obligations.KeyWaitIsEntered : Prop :=
  ∀ (x : Nibble) (s : State),
    ∃ t, exec (.ldVxK x) s = .next t ∧ t.result = .ok ∧ t.mode = .awaitKeyPress ∧ t.waitX = x ∧
      t.keySnapshot = s.keys ∧ KeepsAllBut [.keyWait] s t

/-- R137, R138 (the three modes and the lowest key are the spec's decision D14, NO_KEY_VALUE its OPEN D33): while
AwaitKeyPress, both entries take the key capture and return Ok, whatever the word; `pc` and memory stay. -/
def Obligations.KeyCaptureFollowsItsMode : Prop :=
  ∀ (s : State) (w : Word), s.mode = .awaitKeyPress →
    ∃ t, step s = .next t ∧ execute w s = .next t ∧ t.result = .ok ∧ KeepsAllBut [.registers, .keyWait] s t ∧
      match s.cfg.keyWaitMode with
      | .edge =>
        (∀ k, IsLowestSet (s.keys &&& ~~~s.keySnapshot) k → CapturedValue s t k) ∧
        ((∀ k, k < 16 → s.keys.getLsbD k = true → s.keySnapshot.getLsbD k = true) → StillWaiting s t s.keys)
      | .level =>
        (∀ k, IsLowestSet s.keys k → CapturedValue s t k) ∧ (s.keys = 0 → StillWaiting s t s.keySnapshot)
      | .snapshot =>
        (∀ k, IsLowestSet s.keys k → CapturedValue s t k) ∧
        (s.keys = 0 → CapturedValue s t s.cfg.noKeyValue.toNat)

/-! ## Memory transfers -/

/-- R269 (digit order is D17, all-or-nothing D5): LD B stores the hundreds, tens and ones of `V[x]` at `I`, `I+1`, `I+2`
and nothing elsewhere; past 4095 it stores nothing and takes OutOfBoundsAccess. -/
def Obligations.BcdStoresThreeDigits : Prop :=
  ∀ (x : Nibble) (s : State), s.Inv →
    (s.i.toNat + 2 ≤ 4095 →
      ∃ t, exec (.ldBVx x) s = .next t ∧ t.result = .ok ∧
        (t.readByte s.i.toNat).toNat = (s.getV x).toNat / 100 ∧
        (t.readByte (s.i.toNat + 1)).toNat = (s.getV x).toNat / 10 % 10 ∧
        (t.readByte (s.i.toNat + 2)).toNat = (s.getV x).toNat % 10 ∧
        (∀ a, ¬(s.i.toNat ≤ a ∧ a ≤ s.i.toNat + 2) → t.readByte a = s.readByte a) ∧ KeepsAllBut [.memory] s t) ∧
    (4095 < s.i.toNat + 2 → RaisesError (.ldBVx x) .outOfBoundsAccess (some (max s.i.toNat 4096)) s)

/-- R270 (`I` unchanged is D16, all-or-nothing D5): LD [I], Vx stores `V[0]..V[x]` at `I..I+x` and nothing elsewhere;
past 4095 it stores nothing and takes OutOfBoundsAccess. -/
def Obligations.BlockStoreWritesRegisters : Prop :=
  ∀ (x : Nibble) (s : State), s.Inv →
    (s.i.toNat + x.toNat ≤ 4095 →
      ∃ t, exec (.ldMemVx x) s = .next t ∧ t.result = .ok ∧
        (∀ j : Nibble, j.toNat ≤ x.toNat → t.readByte (s.i.toNat + j.toNat) = s.getV j) ∧
        (∀ a, ¬(s.i.toNat ≤ a ∧ a ≤ s.i.toNat + x.toNat) → t.readByte a = s.readByte a) ∧ KeepsAllBut [.memory] s t) ∧
    (4095 < s.i.toNat + x.toNat → RaisesError (.ldMemVx x) .outOfBoundsAccess (some (max s.i.toNat 4096)) s)

/-- R271 (`I` unchanged is D16, all-or-nothing D5): LD Vx, [I] loads `V[0]..V[x]` from `I..I+x` and writes no other
register; past 4095 it loads nothing and takes OutOfBoundsAccess. -/
def Obligations.BlockLoadReadsRegisters : Prop :=
  ∀ (x : Nibble) (s : State),
    (s.i.toNat + x.toNat ≤ 4095 →
      ∃ t, exec (.ldVxMem x) s = .next t ∧ t.result = .ok ∧
        (∀ j : Nibble, j.toNat ≤ x.toNat → t.getV j = s.readByte (s.i.toNat + j.toNat)) ∧
        (∀ j : Nibble, x.toNat < j.toNat → t.getV j = s.getV j) ∧ KeepsAllBut [.registers] s t) ∧
    (4095 < s.i.toNat + x.toNat → RaisesError (.ldVxMem x) .outOfBoundsAccess (some (max s.i.toNat 4096)) s)

/-- R270, R271: a block stored and loaded back, whatever the registers held between, gives the registers back. -/
def Obligations.BlockStoreThenLoadGivesBack : Prop :=
  ∀ (x : Nibble) (s t u v : State), s.Inv → exec (.ldMemVx x) s = .next t → t.result = .ok →
    u.i = t.i → (∀ a, u.readByte a = t.readByte a) → exec (.ldVxMem x) u = .next v →
    v.result = .ok ∧ ∀ j : Nibble, j.toNat ≤ x.toNat → v.getV j = s.getV j

/-- R84, R348: a store by LD [I] or LD B, or by the host's `loadProgram`, is what the very next fetch reads, whichever of
the word's two bytes it covers: one, both or neither (digit order and `I` are D17 and D16, the whole image D22). -/
def Obligations.StoresAreSeenByTheNextFetch : Prop :=
  ∀ (x : Nibble) (bytes : List Byte) (a : Nat) (s : State), s.Inv →
    (s.i.toNat + x.toNat ≤ 4095 →
      ∃ t, exec (.ldMemVx x) s = .next t ∧ t.result = .ok ∧
        t.fetchWord.toNat =
          wordAfterStore s s.i.toNat (x.toNat + 1) (fun k => (s.getV (BitVec.ofNat 4 k)).toNat)) ∧
    (s.i.toNat + 2 ≤ 4095 →
      ∃ t, exec (.ldBVx x) s = .next t ∧ t.result = .ok ∧
        t.fetchWord.toNat = wordAfterStore s s.i.toNat 3 (fun k => (s.getV x).toNat / 10 ^ (2 - k) % 10)) ∧
    (bytes = [] ∨ a + bytes.length ≤ 4096 →
      ∃ t, loadProgram bytes a s = .next t ∧ t.result = .ok ∧
        t.fetchWord.toNat = wordAfterStore s a bytes.length (fun k => (bytes.getD k 0).toNat))

/-! ## Host operations -/

/-- R313: one `tickTimers` decrements each timer once, floored at zero, and changes nothing else; that it does so in either
mode, the key wait included, is the spec's decision D31 (log 17). -/
def Obligations.TickDecrementsBothTimers : Prop :=
  ∀ s : State, hostStep .tickTimers s = .next (tickTimers s) ∧
    (tickTimers s).dt.toNat = (if s.dt.toNat > 0 then s.dt.toNat - 1 else 0) ∧
    (tickTimers s).st.toNat = (if s.st.toNat > 0 then s.st.toNat - 1 else 0) ∧
    KeepsAllBut [.delayTimer, .soundTimer] s (tickTimers s)

/-- R315 (the packing is the spec's decision D27): `setKeyState(k, pressed)` writes bit `k` of `K` and nothing else. -/
def Obligations.SetKeyStateWritesOneKey : Prop :=
  ∀ (k : Fin 16) (pressed : Bool) (s : State),
    (setKeyState k pressed s).keys.getLsbD k.val = pressed ∧
    (∀ j : Nat, j ≠ k.val → (setKeyState k pressed s).keys.getLsbD j = s.keys.getLsbD j) ∧
    KeepsAllBut [.keys] s (setKeyState k pressed s)

/-- R318 (the spec's decision D22): `loadProgram` writes the whole image, or, past 4095, nothing and OutOfBoundsAccess;
an empty image always succeeds; no other state changes. -/
def Obligations.LoadProgramIsAllOrNothing : Prop :=
  ∀ (bytes : List Byte) (a : Nat) (s : State), s.Inv →
    (bytes = [] ∨ a + bytes.length ≤ 4096 →
      ∃ t, loadProgram bytes a s = .next t ∧ t.result = .ok ∧
        (∀ (j : Nat) (h : j < bytes.length), t.readByte (a + j) = bytes[j]) ∧
        (∀ b, ¬(a ≤ b ∧ b < a + bytes.length) → t.readByte b = s.readByte b) ∧ KeepsAllBut [.memory] s t) ∧
    (bytes ≠ [] → 4096 < a + bytes.length →
      ∃ t, loadProgram bytes a s = .next t ∧ KeepsAllBut [] s t ∧
        t.result = .error { kind := .outOfBoundsAccess, opcode := none, pc := s.pc, addr := some (max a 4096) })

/-- R316 (the spec's decision D26): pixel `(c, r)` stands at index `r * 64 + c` of the flat view. -/
def Obligations.FlatDisplayIsRowMajor : Prop :=
  ∀ (s : State) (c : Fin 64) (r : Fin 32),
    (displayFlat s)[r.val * 64 + c.val]? = some ((getDisplay s).get c r)

/-- R312 (`setPC` and `getPC` are the spec's decision D28, log 18): the host's `setPC(v)` makes `pc` `v mod 2^16`, in every
state and unchecked, `getPC` reads it back, and nothing else changes. -/
def Obligations.SetPcWritesOnlyPc : Prop :=
  ∀ (v : Nat) (s : State),
    ∃ t, hostStep (.setPc v) s = .next t ∧ t.pc.toNat = v % 65536 ∧ getPc t = t.pc ∧ KeepsAllBut [.pc] s t
end

