-- ==== Sys2Proof/Laws/State.lean ====
section
/-! SUPPORT. One lemma per field per update, true by rfl, so that no proof unfolds a record update. -/

namespace Sys2Proof.Machine

variable (s : State)

/-! ## setV -/

@[simp] theorem State.setV_mem (x : Nibble) (b : Byte) : (s.setV x b).mem = s.mem := rfl
@[simp] theorem State.setV_v (x : Nibble) (b : Byte) : (s.setV x b).v = s.v.set x.toNat b x.isLt := rfl
@[simp] theorem State.setV_pc (x : Nibble) (b : Byte) : (s.setV x b).pc = s.pc := rfl
@[simp] theorem State.setV_i (x : Nibble) (b : Byte) : (s.setV x b).i = s.i := rfl
@[simp] theorem State.setV_stack (x : Nibble) (b : Byte) : (s.setV x b).stack = s.stack := rfl
@[simp] theorem State.setV_sp (x : Nibble) (b : Byte) : (s.setV x b).sp = s.sp := rfl
@[simp] theorem State.setV_dt (x : Nibble) (b : Byte) : (s.setV x b).dt = s.dt := rfl
@[simp] theorem State.setV_st (x : Nibble) (b : Byte) : (s.setV x b).st = s.st := rfl
@[simp] theorem State.setV_keys (x : Nibble) (b : Byte) : (s.setV x b).keys = s.keys := rfl
@[simp] theorem State.setV_pix (x : Nibble) (b : Byte) : (s.setV x b).pix = s.pix := rfl
@[simp] theorem State.setV_mode (x : Nibble) (b : Byte) : (s.setV x b).mode = s.mode := rfl
@[simp] theorem State.setV_waitX (x : Nibble) (b : Byte) : (s.setV x b).waitX = s.waitX := rfl
@[simp] theorem State.setV_keySnapshot (x : Nibble) (b : Byte) : (s.setV x b).keySnapshot = s.keySnapshot := rfl
@[simp] theorem State.setV_cfg (x : Nibble) (b : Byte) : (s.setV x b).cfg = s.cfg := rfl
@[simp] theorem State.setV_draws (x : Nibble) (b : Byte) : (s.setV x b).draws = s.draws := rfl
@[simp] theorem State.setV_result (x : Nibble) (b : Byte) : (s.setV x b).result = s.result := rfl

/-! ## setRegs -/

@[simp] theorem State.setRegs_mem (r : Vector Byte 16) : (s.setRegs r).mem = s.mem := rfl
@[simp] theorem State.setRegs_v (r : Vector Byte 16) : (s.setRegs r).v = r := rfl
@[simp] theorem State.setRegs_pc (r : Vector Byte 16) : (s.setRegs r).pc = s.pc := rfl
@[simp] theorem State.setRegs_i (r : Vector Byte 16) : (s.setRegs r).i = s.i := rfl
@[simp] theorem State.setRegs_stack (r : Vector Byte 16) : (s.setRegs r).stack = s.stack := rfl
@[simp] theorem State.setRegs_sp (r : Vector Byte 16) : (s.setRegs r).sp = s.sp := rfl
@[simp] theorem State.setRegs_dt (r : Vector Byte 16) : (s.setRegs r).dt = s.dt := rfl
@[simp] theorem State.setRegs_st (r : Vector Byte 16) : (s.setRegs r).st = s.st := rfl
@[simp] theorem State.setRegs_keys (r : Vector Byte 16) : (s.setRegs r).keys = s.keys := rfl
@[simp] theorem State.setRegs_pix (r : Vector Byte 16) : (s.setRegs r).pix = s.pix := rfl
@[simp] theorem State.setRegs_mode (r : Vector Byte 16) : (s.setRegs r).mode = s.mode := rfl
@[simp] theorem State.setRegs_waitX (r : Vector Byte 16) : (s.setRegs r).waitX = s.waitX := rfl
@[simp] theorem State.setRegs_keySnapshot (r : Vector Byte 16) : (s.setRegs r).keySnapshot = s.keySnapshot := rfl
@[simp] theorem State.setRegs_cfg (r : Vector Byte 16) : (s.setRegs r).cfg = s.cfg := rfl
@[simp] theorem State.setRegs_draws (r : Vector Byte 16) : (s.setRegs r).draws = s.draws := rfl
@[simp] theorem State.setRegs_result (r : Vector Byte 16) : (s.setRegs r).result = s.result := rfl

/-! ## setPc -/

@[simp] theorem State.setPc_mem (w : Word) : (s.setPc w).mem = s.mem := rfl
@[simp] theorem State.setPc_v (w : Word) : (s.setPc w).v = s.v := rfl
@[simp] theorem State.setPc_pc (w : Word) : (s.setPc w).pc = w := rfl
@[simp] theorem State.setPc_i (w : Word) : (s.setPc w).i = s.i := rfl
@[simp] theorem State.setPc_stack (w : Word) : (s.setPc w).stack = s.stack := rfl
@[simp] theorem State.setPc_sp (w : Word) : (s.setPc w).sp = s.sp := rfl
@[simp] theorem State.setPc_dt (w : Word) : (s.setPc w).dt = s.dt := rfl
@[simp] theorem State.setPc_st (w : Word) : (s.setPc w).st = s.st := rfl
@[simp] theorem State.setPc_keys (w : Word) : (s.setPc w).keys = s.keys := rfl
@[simp] theorem State.setPc_pix (w : Word) : (s.setPc w).pix = s.pix := rfl
@[simp] theorem State.setPc_mode (w : Word) : (s.setPc w).mode = s.mode := rfl
@[simp] theorem State.setPc_waitX (w : Word) : (s.setPc w).waitX = s.waitX := rfl
@[simp] theorem State.setPc_keySnapshot (w : Word) : (s.setPc w).keySnapshot = s.keySnapshot := rfl
@[simp] theorem State.setPc_cfg (w : Word) : (s.setPc w).cfg = s.cfg := rfl
@[simp] theorem State.setPc_draws (w : Word) : (s.setPc w).draws = s.draws := rfl
@[simp] theorem State.setPc_result (w : Word) : (s.setPc w).result = s.result := rfl

/-! ## setI -/

@[simp] theorem State.setI_mem (w : Word) : (s.setI w).mem = s.mem := rfl
@[simp] theorem State.setI_v (w : Word) : (s.setI w).v = s.v := rfl
@[simp] theorem State.setI_pc (w : Word) : (s.setI w).pc = s.pc := rfl
@[simp] theorem State.setI_i (w : Word) : (s.setI w).i = w := rfl
@[simp] theorem State.setI_stack (w : Word) : (s.setI w).stack = s.stack := rfl
@[simp] theorem State.setI_sp (w : Word) : (s.setI w).sp = s.sp := rfl
@[simp] theorem State.setI_dt (w : Word) : (s.setI w).dt = s.dt := rfl
@[simp] theorem State.setI_st (w : Word) : (s.setI w).st = s.st := rfl
@[simp] theorem State.setI_keys (w : Word) : (s.setI w).keys = s.keys := rfl
@[simp] theorem State.setI_pix (w : Word) : (s.setI w).pix = s.pix := rfl
@[simp] theorem State.setI_mode (w : Word) : (s.setI w).mode = s.mode := rfl
@[simp] theorem State.setI_waitX (w : Word) : (s.setI w).waitX = s.waitX := rfl
@[simp] theorem State.setI_keySnapshot (w : Word) : (s.setI w).keySnapshot = s.keySnapshot := rfl
@[simp] theorem State.setI_cfg (w : Word) : (s.setI w).cfg = s.cfg := rfl
@[simp] theorem State.setI_draws (w : Word) : (s.setI w).draws = s.draws := rfl
@[simp] theorem State.setI_result (w : Word) : (s.setI w).result = s.result := rfl

/-! ## setDt -/

@[simp] theorem State.setDt_mem (b : Byte) : (s.setDt b).mem = s.mem := rfl
@[simp] theorem State.setDt_v (b : Byte) : (s.setDt b).v = s.v := rfl
@[simp] theorem State.setDt_pc (b : Byte) : (s.setDt b).pc = s.pc := rfl
@[simp] theorem State.setDt_i (b : Byte) : (s.setDt b).i = s.i := rfl
@[simp] theorem State.setDt_stack (b : Byte) : (s.setDt b).stack = s.stack := rfl
@[simp] theorem State.setDt_sp (b : Byte) : (s.setDt b).sp = s.sp := rfl
@[simp] theorem State.setDt_dt (b : Byte) : (s.setDt b).dt = b := rfl
@[simp] theorem State.setDt_st (b : Byte) : (s.setDt b).st = s.st := rfl
@[simp] theorem State.setDt_keys (b : Byte) : (s.setDt b).keys = s.keys := rfl
@[simp] theorem State.setDt_pix (b : Byte) : (s.setDt b).pix = s.pix := rfl
@[simp] theorem State.setDt_mode (b : Byte) : (s.setDt b).mode = s.mode := rfl
@[simp] theorem State.setDt_waitX (b : Byte) : (s.setDt b).waitX = s.waitX := rfl
@[simp] theorem State.setDt_keySnapshot (b : Byte) : (s.setDt b).keySnapshot = s.keySnapshot := rfl
@[simp] theorem State.setDt_cfg (b : Byte) : (s.setDt b).cfg = s.cfg := rfl
@[simp] theorem State.setDt_draws (b : Byte) : (s.setDt b).draws = s.draws := rfl
@[simp] theorem State.setDt_result (b : Byte) : (s.setDt b).result = s.result := rfl

/-! ## setSt -/

@[simp] theorem State.setSt_mem (b : Byte) : (s.setSt b).mem = s.mem := rfl
@[simp] theorem State.setSt_v (b : Byte) : (s.setSt b).v = s.v := rfl
@[simp] theorem State.setSt_pc (b : Byte) : (s.setSt b).pc = s.pc := rfl
@[simp] theorem State.setSt_i (b : Byte) : (s.setSt b).i = s.i := rfl
@[simp] theorem State.setSt_stack (b : Byte) : (s.setSt b).stack = s.stack := rfl
@[simp] theorem State.setSt_sp (b : Byte) : (s.setSt b).sp = s.sp := rfl
@[simp] theorem State.setSt_dt (b : Byte) : (s.setSt b).dt = s.dt := rfl
@[simp] theorem State.setSt_st (b : Byte) : (s.setSt b).st = b := rfl
@[simp] theorem State.setSt_keys (b : Byte) : (s.setSt b).keys = s.keys := rfl
@[simp] theorem State.setSt_pix (b : Byte) : (s.setSt b).pix = s.pix := rfl
@[simp] theorem State.setSt_mode (b : Byte) : (s.setSt b).mode = s.mode := rfl
@[simp] theorem State.setSt_waitX (b : Byte) : (s.setSt b).waitX = s.waitX := rfl
@[simp] theorem State.setSt_keySnapshot (b : Byte) : (s.setSt b).keySnapshot = s.keySnapshot := rfl
@[simp] theorem State.setSt_cfg (b : Byte) : (s.setSt b).cfg = s.cfg := rfl
@[simp] theorem State.setSt_draws (b : Byte) : (s.setSt b).draws = s.draws := rfl
@[simp] theorem State.setSt_result (b : Byte) : (s.setSt b).result = s.result := rfl

/-! ## setKeys -/

@[simp] theorem State.setKeys_mem (w : Word) : (s.setKeys w).mem = s.mem := rfl
@[simp] theorem State.setKeys_v (w : Word) : (s.setKeys w).v = s.v := rfl
@[simp] theorem State.setKeys_pc (w : Word) : (s.setKeys w).pc = s.pc := rfl
@[simp] theorem State.setKeys_i (w : Word) : (s.setKeys w).i = s.i := rfl
@[simp] theorem State.setKeys_stack (w : Word) : (s.setKeys w).stack = s.stack := rfl
@[simp] theorem State.setKeys_sp (w : Word) : (s.setKeys w).sp = s.sp := rfl
@[simp] theorem State.setKeys_dt (w : Word) : (s.setKeys w).dt = s.dt := rfl
@[simp] theorem State.setKeys_st (w : Word) : (s.setKeys w).st = s.st := rfl
@[simp] theorem State.setKeys_keys (w : Word) : (s.setKeys w).keys = w := rfl
@[simp] theorem State.setKeys_pix (w : Word) : (s.setKeys w).pix = s.pix := rfl
@[simp] theorem State.setKeys_mode (w : Word) : (s.setKeys w).mode = s.mode := rfl
@[simp] theorem State.setKeys_waitX (w : Word) : (s.setKeys w).waitX = s.waitX := rfl
@[simp] theorem State.setKeys_keySnapshot (w : Word) : (s.setKeys w).keySnapshot = s.keySnapshot := rfl
@[simp] theorem State.setKeys_cfg (w : Word) : (s.setKeys w).cfg = s.cfg := rfl
@[simp] theorem State.setKeys_draws (w : Word) : (s.setKeys w).draws = s.draws := rfl
@[simp] theorem State.setKeys_result (w : Word) : (s.setKeys w).result = s.result := rfl

/-! ## setPix -/

@[simp] theorem State.setPix_mem (d : Display) : (s.setPix d).mem = s.mem := rfl
@[simp] theorem State.setPix_v (d : Display) : (s.setPix d).v = s.v := rfl
@[simp] theorem State.setPix_pc (d : Display) : (s.setPix d).pc = s.pc := rfl
@[simp] theorem State.setPix_i (d : Display) : (s.setPix d).i = s.i := rfl
@[simp] theorem State.setPix_stack (d : Display) : (s.setPix d).stack = s.stack := rfl
@[simp] theorem State.setPix_sp (d : Display) : (s.setPix d).sp = s.sp := rfl
@[simp] theorem State.setPix_dt (d : Display) : (s.setPix d).dt = s.dt := rfl
@[simp] theorem State.setPix_st (d : Display) : (s.setPix d).st = s.st := rfl
@[simp] theorem State.setPix_keys (d : Display) : (s.setPix d).keys = s.keys := rfl
@[simp] theorem State.setPix_pix (d : Display) : (s.setPix d).pix = d := rfl
@[simp] theorem State.setPix_mode (d : Display) : (s.setPix d).mode = s.mode := rfl
@[simp] theorem State.setPix_waitX (d : Display) : (s.setPix d).waitX = s.waitX := rfl
@[simp] theorem State.setPix_keySnapshot (d : Display) : (s.setPix d).keySnapshot = s.keySnapshot := rfl
@[simp] theorem State.setPix_cfg (d : Display) : (s.setPix d).cfg = s.cfg := rfl
@[simp] theorem State.setPix_draws (d : Display) : (s.setPix d).draws = s.draws := rfl
@[simp] theorem State.setPix_result (d : Display) : (s.setPix d).result = s.result := rfl

/-! ## setWait -/

@[simp] theorem State.setWait_mem (m : Mode) (x : Nibble) (k : Word) : (s.setWait m x k).mem = s.mem := rfl
@[simp] theorem State.setWait_v (m : Mode) (x : Nibble) (k : Word) : (s.setWait m x k).v = s.v := rfl
@[simp] theorem State.setWait_pc (m : Mode) (x : Nibble) (k : Word) : (s.setWait m x k).pc = s.pc := rfl
@[simp] theorem State.setWait_i (m : Mode) (x : Nibble) (k : Word) : (s.setWait m x k).i = s.i := rfl
@[simp] theorem State.setWait_stack (m : Mode) (x : Nibble) (k : Word) : (s.setWait m x k).stack = s.stack := rfl
@[simp] theorem State.setWait_sp (m : Mode) (x : Nibble) (k : Word) : (s.setWait m x k).sp = s.sp := rfl
@[simp] theorem State.setWait_dt (m : Mode) (x : Nibble) (k : Word) : (s.setWait m x k).dt = s.dt := rfl
@[simp] theorem State.setWait_st (m : Mode) (x : Nibble) (k : Word) : (s.setWait m x k).st = s.st := rfl
@[simp] theorem State.setWait_keys (m : Mode) (x : Nibble) (k : Word) : (s.setWait m x k).keys = s.keys := rfl
@[simp] theorem State.setWait_pix (m : Mode) (x : Nibble) (k : Word) : (s.setWait m x k).pix = s.pix := rfl
@[simp] theorem State.setWait_mode (m : Mode) (x : Nibble) (k : Word) : (s.setWait m x k).mode = m := rfl
@[simp] theorem State.setWait_waitX (m : Mode) (x : Nibble) (k : Word) : (s.setWait m x k).waitX = x := rfl
@[simp] theorem State.setWait_keySnapshot (m : Mode) (x : Nibble) (k : Word) : (s.setWait m x k).keySnapshot = k := rfl
@[simp] theorem State.setWait_cfg (m : Mode) (x : Nibble) (k : Word) : (s.setWait m x k).cfg = s.cfg := rfl
@[simp] theorem State.setWait_draws (m : Mode) (x : Nibble) (k : Word) : (s.setWait m x k).draws = s.draws := rfl
@[simp] theorem State.setWait_result (m : Mode) (x : Nibble) (k : Word) : (s.setWait m x k).result = s.result := rfl

/-! ## setStack -/

@[simp] theorem State.setStack_mem (l : List Word) (n : Nat) : (s.setStack l n).mem = s.mem := rfl
@[simp] theorem State.setStack_v (l : List Word) (n : Nat) : (s.setStack l n).v = s.v := rfl
@[simp] theorem State.setStack_pc (l : List Word) (n : Nat) : (s.setStack l n).pc = s.pc := rfl
@[simp] theorem State.setStack_i (l : List Word) (n : Nat) : (s.setStack l n).i = s.i := rfl
@[simp] theorem State.setStack_stack (l : List Word) (n : Nat) : (s.setStack l n).stack = l := rfl
@[simp] theorem State.setStack_sp (l : List Word) (n : Nat) : (s.setStack l n).sp = n := rfl
@[simp] theorem State.setStack_dt (l : List Word) (n : Nat) : (s.setStack l n).dt = s.dt := rfl
@[simp] theorem State.setStack_st (l : List Word) (n : Nat) : (s.setStack l n).st = s.st := rfl
@[simp] theorem State.setStack_keys (l : List Word) (n : Nat) : (s.setStack l n).keys = s.keys := rfl
@[simp] theorem State.setStack_pix (l : List Word) (n : Nat) : (s.setStack l n).pix = s.pix := rfl
@[simp] theorem State.setStack_mode (l : List Word) (n : Nat) : (s.setStack l n).mode = s.mode := rfl
@[simp] theorem State.setStack_waitX (l : List Word) (n : Nat) : (s.setStack l n).waitX = s.waitX := rfl
@[simp] theorem State.setStack_keySnapshot (l : List Word) (n : Nat) : (s.setStack l n).keySnapshot = s.keySnapshot := rfl
@[simp] theorem State.setStack_cfg (l : List Word) (n : Nat) : (s.setStack l n).cfg = s.cfg := rfl
@[simp] theorem State.setStack_draws (l : List Word) (n : Nat) : (s.setStack l n).draws = s.draws := rfl
@[simp] theorem State.setStack_result (l : List Word) (n : Nat) : (s.setStack l n).result = s.result := rfl

/-! ## setMem -/

@[simp] theorem State.setMem_mem (m : Memory) : (s.setMem m).mem = m := rfl
@[simp] theorem State.setMem_v (m : Memory) : (s.setMem m).v = s.v := rfl
@[simp] theorem State.setMem_pc (m : Memory) : (s.setMem m).pc = s.pc := rfl
@[simp] theorem State.setMem_i (m : Memory) : (s.setMem m).i = s.i := rfl
@[simp] theorem State.setMem_stack (m : Memory) : (s.setMem m).stack = s.stack := rfl
@[simp] theorem State.setMem_sp (m : Memory) : (s.setMem m).sp = s.sp := rfl
@[simp] theorem State.setMem_dt (m : Memory) : (s.setMem m).dt = s.dt := rfl
@[simp] theorem State.setMem_st (m : Memory) : (s.setMem m).st = s.st := rfl
@[simp] theorem State.setMem_keys (m : Memory) : (s.setMem m).keys = s.keys := rfl
@[simp] theorem State.setMem_pix (m : Memory) : (s.setMem m).pix = s.pix := rfl
@[simp] theorem State.setMem_mode (m : Memory) : (s.setMem m).mode = s.mode := rfl
@[simp] theorem State.setMem_waitX (m : Memory) : (s.setMem m).waitX = s.waitX := rfl
@[simp] theorem State.setMem_keySnapshot (m : Memory) : (s.setMem m).keySnapshot = s.keySnapshot := rfl
@[simp] theorem State.setMem_cfg (m : Memory) : (s.setMem m).cfg = s.cfg := rfl
@[simp] theorem State.setMem_draws (m : Memory) : (s.setMem m).draws = s.draws := rfl
@[simp] theorem State.setMem_result (m : Memory) : (s.setMem m).result = s.result := rfl

/-! ## countDraw -/

@[simp] theorem State.countDraw_mem : (s.countDraw).mem = s.mem := rfl
@[simp] theorem State.countDraw_v : (s.countDraw).v = s.v := rfl
@[simp] theorem State.countDraw_pc : (s.countDraw).pc = s.pc := rfl
@[simp] theorem State.countDraw_i : (s.countDraw).i = s.i := rfl
@[simp] theorem State.countDraw_stack : (s.countDraw).stack = s.stack := rfl
@[simp] theorem State.countDraw_sp : (s.countDraw).sp = s.sp := rfl
@[simp] theorem State.countDraw_dt : (s.countDraw).dt = s.dt := rfl
@[simp] theorem State.countDraw_st : (s.countDraw).st = s.st := rfl
@[simp] theorem State.countDraw_keys : (s.countDraw).keys = s.keys := rfl
@[simp] theorem State.countDraw_pix : (s.countDraw).pix = s.pix := rfl
@[simp] theorem State.countDraw_mode : (s.countDraw).mode = s.mode := rfl
@[simp] theorem State.countDraw_waitX : (s.countDraw).waitX = s.waitX := rfl
@[simp] theorem State.countDraw_keySnapshot : (s.countDraw).keySnapshot = s.keySnapshot := rfl
@[simp] theorem State.countDraw_cfg : (s.countDraw).cfg = s.cfg := rfl
@[simp] theorem State.countDraw_draws : (s.countDraw).draws = s.draws + 1 := rfl
@[simp] theorem State.countDraw_result : (s.countDraw).result = s.result := rfl

/-! ## setResult -/

@[simp] theorem State.setResult_mem (r : StepResult) : (s.setResult r).mem = s.mem := rfl
@[simp] theorem State.setResult_v (r : StepResult) : (s.setResult r).v = s.v := rfl
@[simp] theorem State.setResult_pc (r : StepResult) : (s.setResult r).pc = s.pc := rfl
@[simp] theorem State.setResult_i (r : StepResult) : (s.setResult r).i = s.i := rfl
@[simp] theorem State.setResult_stack (r : StepResult) : (s.setResult r).stack = s.stack := rfl
@[simp] theorem State.setResult_sp (r : StepResult) : (s.setResult r).sp = s.sp := rfl
@[simp] theorem State.setResult_dt (r : StepResult) : (s.setResult r).dt = s.dt := rfl
@[simp] theorem State.setResult_st (r : StepResult) : (s.setResult r).st = s.st := rfl
@[simp] theorem State.setResult_keys (r : StepResult) : (s.setResult r).keys = s.keys := rfl
@[simp] theorem State.setResult_pix (r : StepResult) : (s.setResult r).pix = s.pix := rfl
@[simp] theorem State.setResult_mode (r : StepResult) : (s.setResult r).mode = s.mode := rfl
@[simp] theorem State.setResult_waitX (r : StepResult) : (s.setResult r).waitX = s.waitX := rfl
@[simp] theorem State.setResult_keySnapshot (r : StepResult) : (s.setResult r).keySnapshot = s.keySnapshot := rfl
@[simp] theorem State.setResult_cfg (r : StepResult) : (s.setResult r).cfg = s.cfg := rfl
@[simp] theorem State.setResult_draws (r : StepResult) : (s.setResult r).draws = s.draws := rfl
@[simp] theorem State.setResult_result (r : StepResult) : (s.setResult r).result = r := rfl

end Sys2Proof.Machine
end

