-- ==== Sys2Proof/Laws/Memory.lean ====
section
/-! SUPPORT. Memory: read after write, and that every memory operation keeps the canonical form. -/

namespace Sys2Proof.Machine

variable (d : Nat → Byte)

/-- Below the first listed address a canonical memory lists nothing. -/
theorem Memory.read_of_lt_all {m : Memory} {a : Nat} (h : ∀ p ∈ m, a < p.1) : Memory.read d m a = d a := by
  induction m with
  | nil => rfl
  | cons p m ih =>
    have hp : a ≠ p.1 := Nat.ne_of_lt (h p (by simp))
    simp [Memory.read, hp, ih fun q hq => h q (by simp [hq])]

/-- Reading address `b` after storing `x` at `a`. -/
theorem Memory.read_write {m : Memory} (hm : m.Pairwise (fun p q => p.1 < q.1)) (a b : Nat) (x : Byte) :
    Memory.read d (Memory.write d m a x) b = if b = a then x else Memory.read d m b := by
  induction m with
  | nil =>
    by_cases hx : x = d a <;> by_cases hb : b = a <;> simp_all [Memory.write, Memory.read]
  | cons p m ih =>
    obtain ⟨hp, hm⟩ := List.pairwise_cons.mp hm
    have ih := ih hm
    have hlow : p.1 = a → Memory.read d m a = d a := fun e => Memory.read_of_lt_all d (e ▸ hp)
    have hlow' : a < p.1 → Memory.read d m a = d a := fun e =>
      Memory.read_of_lt_all d fun q hq => Nat.lt_trans e (hp q hq)
    obtain ⟨c, u⟩ := p
    simp only [Memory.write]
    split_ifs with h1 h2 h3 h4 <;> (try simp only [Memory.read]) <;> (try split_ifs) <;> simp_all

/-- Storing keeps every listed address in the list or adds `a`. -/
theorem Memory.mem_write {m : Memory} {a : Nat} {x : Byte} {p : Host.Cell} (h : p ∈ Memory.write d m a x) :
    p ∈ m ∨ (p = (a, x) ∧ x ≠ d a) := by
  induction m with
  | nil =>
    by_cases hx : x = d a <;> simp_all [Memory.write]
  | cons q m ih =>
    obtain ⟨c, u⟩ := q
    simp only [Memory.write] at h
    split_ifs at h <;> simp_all <;> tauto

/-- The canonical form is kept by every store inside memory (R70, R72). -/
theorem Memory.write_wf {m : Memory} (hm : Memory.wf d m) {a : Nat} (ha : a < 4096) (x : Byte) :
    Memory.wf d (Memory.write d m a x) := by
  refine ⟨?_, fun p hp => ?_⟩
  · have hpw := hm.1
    clear hm
    induction m with
    | nil => by_cases hx : x = d a <;> simp [Memory.write, hx]
    | cons q m ih =>
      obtain ⟨hq, hm⟩ := List.pairwise_cons.mp hpw
      have ih := ih hm
      obtain ⟨c, u⟩ := q
      simp only [Memory.write]
      split_ifs with h1 h2 h3 h4
      · exact hpw
      · refine List.pairwise_cons.mpr ⟨fun p hp => ?_, hpw⟩
        rcases List.mem_cons.mp hp with rfl | hp
        · exact h1
        · exact Nat.lt_trans h1 (hq p hp)
      · exact hm
      · exact List.pairwise_cons.mpr ⟨fun p hp => h3 ▸ hq p hp, hm⟩
      · refine List.pairwise_cons.mpr ⟨fun p hp => ?_, ih⟩
        rcases Memory.mem_write d hp with hp | ⟨rfl, -⟩
        · exact hq p hp
        · show c < a
          omega
  · rcases Memory.mem_write d hp with hp | ⟨rfl, hx⟩
    · exact hm.2 p hp
    · exact ⟨ha, hx⟩

/-- Reset memory, which lists nothing, is canonical. -/
theorem Memory.nil_wf : Memory.wf d [] := ⟨List.Pairwise.nil, by simp⟩

/-- The canonical form of a state's memory. -/
abbrev State.MemWf (s : State) : Prop := Memory.wf (resetByte s.cfg) s.mem

/-- Storing one byte changes memory and nothing else. -/
theorem State.writeByte_eq (s : State) (a : Nat) (x : Byte) : ∃ m, s.writeByte a x = s.setMem m := by
  unfold State.writeByte
  split
  · exact ⟨_, rfl⟩
  · exact ⟨s.mem, rfl⟩

/-- Storing bytes changes memory and nothing else. -/
theorem State.writeBytes_eq (s : State) (a : Nat) (xs : List Byte) : ∃ m, s.writeBytes a xs = s.setMem m := by
  induction xs generalizing s a with
  | nil => exact ⟨s.mem, rfl⟩
  | cons x xs ih =>
    obtain ⟨m, hm⟩ := s.writeByte_eq a x
    obtain ⟨m', hm'⟩ := ih (s.writeByte a x) (a + 1)
    exact ⟨m', by rw [State.writeBytes, hm', hm]; rfl⟩

theorem State.writeByte_memWf {s : State} (h : s.MemWf) (a : Nat) (x : Byte) : (s.writeByte a x).MemWf := by
  unfold State.writeByte
  split
  · exact Memory.write_wf _ h ‹_› x
  · exact h

theorem State.writeBytes_memWf {s : State} (h : s.MemWf) (a : Nat) (xs : List Byte) : (s.writeBytes a xs).MemWf := by
  induction xs generalizing s a with
  | nil => exact h
  | cons x xs ih => exact ih (State.writeByte_memWf h a x) (a + 1)

/-- Read after write of one byte (R79, R81). -/
theorem State.readByte_writeByte {s : State} (h : s.MemWf) (a b : Nat) (x : Byte) :
    (s.writeByte a x).readByte b = if b = a ∧ a < 4096 then x else s.readByte b := by
  unfold State.writeByte
  split <;> rename_i ha
  · simp only [ha, and_true, State.readByte, State.setMem_cfg, State.setMem_mem]
    exact Memory.read_write _ h.1 a b x
  · simp [ha]

/-- Read after a store of several bytes inside memory: the stored byte inside the range, the old one outside. -/
theorem State.readByte_writeBytes {s : State} (h : s.MemWf) {a : Nat} {xs : List Byte} (hr : a + xs.length ≤ 4096)
    (b : Nat) : (s.writeBytes a xs).readByte b =
      if hb : a ≤ b ∧ b < a + xs.length then xs[b - a]'(by omega) else s.readByte b := by
  induction xs generalizing s a with
  | nil =>
    simp [State.writeBytes]
  | cons x xs ih =>
    simp only [List.length_cons] at hr
    rw [State.writeBytes, ih (State.writeByte_memWf h a x) (by omega), State.readByte_writeByte h]
    have ha : a < 4096 := by omega
    by_cases hin : a + 1 ≤ b ∧ b < a + 1 + xs.length
    · have hin' : a ≤ b ∧ b < a + (x :: xs).length := by simp only [List.length_cons]; omega
      have e : b - a = (b - (a + 1)) + 1 := by omega
      simp only [hin, hin', dif_pos, and_self, e, List.getElem_cons_succ]
    · by_cases hb : b = a
      · subst hb; simp [ha]
      · have hout : ¬(a ≤ b ∧ b < a + (x :: xs).length) := by simp only [List.length_cons]; omega
        rw [dif_neg hin, dif_neg hout, if_neg (fun h => hb h.1)]

/-- Memory reads depend on the memory and the parameters alone. -/
theorem State.readByte_congr {s t : State} (hm : t.mem = s.mem) (hc : t.cfg = s.cfg) (a : Nat) :
    t.readByte a = s.readByte a := by
  simp [State.readByte, hm, hc]

@[simp] theorem State.readByte_setV (s : State) (x : Nibble) (b : Byte) (a : Nat) :
    (s.setV x b).readByte a = s.readByte a := rfl
@[simp] theorem State.readByte_setRegs (s : State) (r : Vector Byte 16) (a : Nat) :
    (s.setRegs r).readByte a = s.readByte a := rfl
@[simp] theorem State.readByte_setPc (s : State) (w : Word) (a : Nat) : (s.setPc w).readByte a = s.readByte a := rfl
@[simp] theorem State.readByte_setI (s : State) (w : Word) (a : Nat) : (s.setI w).readByte a = s.readByte a := rfl
@[simp] theorem State.readByte_setDt (s : State) (b : Byte) (a : Nat) : (s.setDt b).readByte a = s.readByte a := rfl
@[simp] theorem State.readByte_setSt (s : State) (b : Byte) (a : Nat) : (s.setSt b).readByte a = s.readByte a := rfl
@[simp] theorem State.readByte_setKeys (s : State) (w : Word) (a : Nat) : (s.setKeys w).readByte a = s.readByte a := rfl
@[simp] theorem State.readByte_setPix (s : State) (p : Display) (a : Nat) :
    (s.setPix p).readByte a = s.readByte a := rfl
@[simp] theorem State.readByte_setWait (s : State) (m : Mode) (x : Nibble) (k : Word) (a : Nat) :
    (s.setWait m x k).readByte a = s.readByte a := rfl
@[simp] theorem State.readByte_setStack (s : State) (l : List Word) (n a : Nat) :
    (s.setStack l n).readByte a = s.readByte a := rfl
@[simp] theorem State.readByte_countDraw (s : State) (a : Nat) : s.countDraw.readByte a = s.readByte a := rfl
@[simp] theorem State.readByte_setResult (s : State) (r : StepResult) (a : Nat) :
    (s.setResult r).readByte a = s.readByte a := rfl

/-- The bytes a multi-byte read gives. -/
@[simp] theorem State.readBytes_length (s : State) (a n : Nat) : (s.readBytes a n).length = n := by
  simp [State.readBytes]

theorem State.readBytes_get (s : State) (a n k : Nat) (h : k < n) :
    (s.readBytes a n)[k]'(by simpa using h) = s.readByte (a + k) := by
  simp [State.readBytes]

/-- The decoder's verdict on a whole access: none exactly when every address it touches is at most 4095 (R72, R73). -/
theorem firstOutOfRange_none {base count : Nat} :
    firstOutOfRange base count = none ↔ count = 0 ∨ base + count ≤ 4096 := by
  unfold firstOutOfRange
  split <;> simp_all

/-- The reported address: the lowest touched one above 4095 (R73). -/
theorem firstOutOfRange_some {base count a : Nat} :
    firstOutOfRange base count = some a ↔ count ≠ 0 ∧ 4096 < base + count ∧ a = max base 4096 := by
  unfold firstOutOfRange
  split <;> simp_all <;> omega

end Sys2Proof.Machine
end

