-- ==== Sys2Proof/Laws/Outcome.lean ====
section
/-! SUPPORT. Everything `complete`, `raise` and `reportAt` can do, said once. -/

namespace Sys2Proof.Machine

/-- A completed step answers the state with result `Ok`, and nothing else. -/
@[simp] theorem complete_eq_next (s t : State) : complete s = .next t ↔ s.setResult .ok = t := by
  simp [complete]

/-- Taking an error answers the state as it was, with the report. -/
@[simp] theorem raise_eq_next (k : ErrorKind) (w : Option Word) (a : Option Nat) (s t : State) :
    raise k w a s = .next t ↔ s.setResult (.error { kind := k, opcode := w, pc := s.pc, addr := a }) = t := by
  simp [raise]

@[simp] theorem raiseIn_eq_next (i : Instr) (k : ErrorKind) (a : Option Nat) (s t : State) :
    raiseIn i k a s = .next t ↔
      s.setResult (.error { kind := k, opcode := some (encode i), pc := s.pc, addr := a }) = t := by
  simp [raiseIn]

@[simp] theorem mapNext_next (f : State → State) (s : State) : mapNext f (.next s) = .next (f s) := rfl

/-- Mapping the next state answers a next state exactly when there was one. -/
theorem mapNext_eq_next (f : State → State) (o : Host.Outcome State Fault Refusal) (t : State) :
    mapNext f o = .next t ↔ ∃ u, o = .next u ∧ f u = t := by
  cases o <;> simp [mapNext]

/-- `reportAt` is an update of the result alone. -/
theorem State.reportAt_eq (s : State) (pc0 : Word) : ∃ r, s.reportAt pc0 = s.setResult r := by
  unfold State.reportAt
  split
  · exact ⟨s.result, rfl⟩
  · exact ⟨_, rfl⟩

@[simp] theorem State.reportAt_of_ok {s : State} (h : s.result = .ok) (pc0 : Word) : s.reportAt pc0 = s := by
  simp [State.reportAt, h]

@[simp] theorem State.reportAt_of_error {s : State} {r : ErrorReport} (h : s.result = .error r) (pc0 : Word) :
    s.reportAt pc0 = s.setResult (.error { r with pc := pc0 }) := by
  simp [State.reportAt, h]

end Sys2Proof.Machine
end

