-- ==== Sys2Proof/Laws/Registers.lean ====
section
/-! SUPPORT. What reading a register gives after each update, and what the compound register operations do. -/

namespace Sys2Proof.Machine

variable (s : State)

/-- Reading register `j` after writing register `x`. -/
theorem State.getV_setV (x j : Nibble) (b : Byte) : (s.setV x b).getV j = if j = x then b else s.getV j := by
  by_cases h : j = x
  · subst h; simp [State.getV, State.setV]
  · have hne : x.toNat ≠ j.toNat := fun e => h (BitVec.eq_of_toNat_eq e.symm)
    simp [State.getV, State.setV, h, hne]

@[simp] theorem State.getV_setV_same (x : Nibble) (b : Byte) : (s.setV x b).getV x = b := by
  simp [State.getV_setV]

theorem State.getV_setV_ne {x j : Nibble} (h : j ≠ x) (b : Byte) : (s.setV x b).getV j = s.getV j := by
  simp [State.getV_setV, h]

/-- An update that leaves the register file alone leaves every register alone. -/
theorem State.getV_congr {s t : State} (h : t.v = s.v) (j : Nibble) : t.getV j = s.getV j := by
  simp [State.getV, h]

@[simp] theorem State.getV_setPc (w : Word) (j : Nibble) : (s.setPc w).getV j = s.getV j := rfl
@[simp] theorem State.getV_setI (w : Word) (j : Nibble) : (s.setI w).getV j = s.getV j := rfl
@[simp] theorem State.getV_setDt (b : Byte) (j : Nibble) : (s.setDt b).getV j = s.getV j := rfl
@[simp] theorem State.getV_setSt (b : Byte) (j : Nibble) : (s.setSt b).getV j = s.getV j := rfl
@[simp] theorem State.getV_setKeys (w : Word) (j : Nibble) : (s.setKeys w).getV j = s.getV j := rfl
@[simp] theorem State.getV_setPix (d : Display) (j : Nibble) : (s.setPix d).getV j = s.getV j := rfl
@[simp] theorem State.getV_setWait (m : Mode) (x : Nibble) (k : Word) (j : Nibble) :
    (s.setWait m x k).getV j = s.getV j := rfl
@[simp] theorem State.getV_setStack (l : List Word) (n : Nat) (j : Nibble) : (s.setStack l n).getV j = s.getV j := rfl
@[simp] theorem State.getV_setMem (m : Memory) (j : Nibble) : (s.setMem m).getV j = s.getV j := rfl
@[simp] theorem State.getV_countDraw (j : Nibble) : s.countDraw.getV j = s.getV j := rfl
@[simp] theorem State.getV_setResult (r : StepResult) (j : Nibble) : (s.setResult r).getV j = s.getV j := rfl

@[simp] theorem State.getV_setRegs (r : Vector Byte 16) (j : Nibble) :
    (s.setRegs r).getV j = r[j.toNat]'j.isLt := rfl

/-- VF holds the flag, whatever the destination was; else the destination holds the result (R190). -/
theorem State.getV_setVWithFlag (x j : Nibble) (r : Byte) (f : Bool) :
    (s.setVWithFlag x r f).getV j = if j = regF then flagByte f else if j = x then r else s.getV j := by
  simp [State.setVWithFlag, State.getV_setV]

/-- The block load writes registers 0..x from memory and keeps the others (R271). -/
theorem State.loadBlock_get (x j : Nibble) :
    (s.loadBlock x)[j.toNat]'j.isLt = if j.toNat ≤ x.toNat then s.readByte (s.i.toNat + j.toNat) else s.getV j := by
  simp [State.loadBlock, State.getV]

@[simp] theorem State.regBlock_length (x : Nibble) : (s.regBlock x).length = x.toNat + 1 := by simp [State.regBlock]

/-- Entry `j` of the block is `V[j]` (R270). -/
theorem State.regBlock_get (x j : Nibble) (h : j.toNat ≤ x.toNat) :
    (s.regBlock x)[j.toNat]'(by simp; omega) = s.getV j := by
  simp [State.regBlock]

@[simp] theorem State.skipIf_pc (c : Bool) : (s.skipIf c).pc = if c then s.pc + 2 else s.pc := by
  cases c <;> rfl

/-- A skip is an update of `pc` and of nothing else. -/
theorem State.skipIf_eq (c : Bool) : s.skipIf c = s.setPc (if c then s.pc + 2 else s.pc) := by
  cases c <;> rfl

end Sys2Proof.Machine
end

