-- ==== Sys2Proof/Laws/Compound.lean ====
section
/-! SUPPORT. What the compound operations leave alone: one lemma per field they do not write, so that no later proof
unfolds them. -/

namespace Sys2Proof.Machine

variable (s : State)

/-! ## Storing bytes writes memory alone (R72) -/

@[simp] theorem State.writeByte_v (a : Nat) (x : Byte) : (s.writeByte a x).v = s.v := by
  obtain ⟨m, h⟩ := s.writeByte_eq a x; rw [h]; rfl
@[simp] theorem State.writeByte_pc (a : Nat) (x : Byte) : (s.writeByte a x).pc = s.pc := by
  obtain ⟨m, h⟩ := s.writeByte_eq a x; rw [h]; rfl
@[simp] theorem State.writeByte_i (a : Nat) (x : Byte) : (s.writeByte a x).i = s.i := by
  obtain ⟨m, h⟩ := s.writeByte_eq a x; rw [h]; rfl
@[simp] theorem State.writeByte_stack (a : Nat) (x : Byte) : (s.writeByte a x).stack = s.stack := by
  obtain ⟨m, h⟩ := s.writeByte_eq a x; rw [h]; rfl
@[simp] theorem State.writeByte_sp (a : Nat) (x : Byte) : (s.writeByte a x).sp = s.sp := by
  obtain ⟨m, h⟩ := s.writeByte_eq a x; rw [h]; rfl
@[simp] theorem State.writeByte_dt (a : Nat) (x : Byte) : (s.writeByte a x).dt = s.dt := by
  obtain ⟨m, h⟩ := s.writeByte_eq a x; rw [h]; rfl
@[simp] theorem State.writeByte_st (a : Nat) (x : Byte) : (s.writeByte a x).st = s.st := by
  obtain ⟨m, h⟩ := s.writeByte_eq a x; rw [h]; rfl
@[simp] theorem State.writeByte_keys (a : Nat) (x : Byte) : (s.writeByte a x).keys = s.keys := by
  obtain ⟨m, h⟩ := s.writeByte_eq a x; rw [h]; rfl
@[simp] theorem State.writeByte_pix (a : Nat) (x : Byte) : (s.writeByte a x).pix = s.pix := by
  obtain ⟨m, h⟩ := s.writeByte_eq a x; rw [h]; rfl
@[simp] theorem State.writeByte_mode (a : Nat) (x : Byte) : (s.writeByte a x).mode = s.mode := by
  obtain ⟨m, h⟩ := s.writeByte_eq a x; rw [h]; rfl
@[simp] theorem State.writeByte_waitX (a : Nat) (x : Byte) : (s.writeByte a x).waitX = s.waitX := by
  obtain ⟨m, h⟩ := s.writeByte_eq a x; rw [h]; rfl
@[simp] theorem State.writeByte_keySnapshot (a : Nat) (x : Byte) : (s.writeByte a x).keySnapshot = s.keySnapshot := by
  obtain ⟨m, h⟩ := s.writeByte_eq a x; rw [h]; rfl
@[simp] theorem State.writeByte_cfg (a : Nat) (x : Byte) : (s.writeByte a x).cfg = s.cfg := by
  obtain ⟨m, h⟩ := s.writeByte_eq a x; rw [h]; rfl
@[simp] theorem State.writeByte_draws (a : Nat) (x : Byte) : (s.writeByte a x).draws = s.draws := by
  obtain ⟨m, h⟩ := s.writeByte_eq a x; rw [h]; rfl
@[simp] theorem State.writeByte_result (a : Nat) (x : Byte) : (s.writeByte a x).result = s.result := by
  obtain ⟨m, h⟩ := s.writeByte_eq a x; rw [h]; rfl

/-! ## Storing several bytes -/

@[simp] theorem State.writeBytes_v (a : Nat) (xs : List Byte) : (s.writeBytes a xs).v = s.v := by
  obtain ⟨m, h⟩ := s.writeBytes_eq a xs; rw [h]; rfl
@[simp] theorem State.writeBytes_pc (a : Nat) (xs : List Byte) : (s.writeBytes a xs).pc = s.pc := by
  obtain ⟨m, h⟩ := s.writeBytes_eq a xs; rw [h]; rfl
@[simp] theorem State.writeBytes_i (a : Nat) (xs : List Byte) : (s.writeBytes a xs).i = s.i := by
  obtain ⟨m, h⟩ := s.writeBytes_eq a xs; rw [h]; rfl
@[simp] theorem State.writeBytes_stack (a : Nat) (xs : List Byte) : (s.writeBytes a xs).stack = s.stack := by
  obtain ⟨m, h⟩ := s.writeBytes_eq a xs; rw [h]; rfl
@[simp] theorem State.writeBytes_sp (a : Nat) (xs : List Byte) : (s.writeBytes a xs).sp = s.sp := by
  obtain ⟨m, h⟩ := s.writeBytes_eq a xs; rw [h]; rfl
@[simp] theorem State.writeBytes_dt (a : Nat) (xs : List Byte) : (s.writeBytes a xs).dt = s.dt := by
  obtain ⟨m, h⟩ := s.writeBytes_eq a xs; rw [h]; rfl
@[simp] theorem State.writeBytes_st (a : Nat) (xs : List Byte) : (s.writeBytes a xs).st = s.st := by
  obtain ⟨m, h⟩ := s.writeBytes_eq a xs; rw [h]; rfl
@[simp] theorem State.writeBytes_keys (a : Nat) (xs : List Byte) : (s.writeBytes a xs).keys = s.keys := by
  obtain ⟨m, h⟩ := s.writeBytes_eq a xs; rw [h]; rfl
@[simp] theorem State.writeBytes_pix (a : Nat) (xs : List Byte) : (s.writeBytes a xs).pix = s.pix := by
  obtain ⟨m, h⟩ := s.writeBytes_eq a xs; rw [h]; rfl
@[simp] theorem State.writeBytes_mode (a : Nat) (xs : List Byte) : (s.writeBytes a xs).mode = s.mode := by
  obtain ⟨m, h⟩ := s.writeBytes_eq a xs; rw [h]; rfl
@[simp] theorem State.writeBytes_waitX (a : Nat) (xs : List Byte) : (s.writeBytes a xs).waitX = s.waitX := by
  obtain ⟨m, h⟩ := s.writeBytes_eq a xs; rw [h]; rfl
@[simp] theorem State.writeBytes_keySnapshot (a : Nat) (xs : List Byte) : (s.writeBytes a xs).keySnapshot = s.keySnapshot := by
  obtain ⟨m, h⟩ := s.writeBytes_eq a xs; rw [h]; rfl
@[simp] theorem State.writeBytes_cfg (a : Nat) (xs : List Byte) : (s.writeBytes a xs).cfg = s.cfg := by
  obtain ⟨m, h⟩ := s.writeBytes_eq a xs; rw [h]; rfl
@[simp] theorem State.writeBytes_draws (a : Nat) (xs : List Byte) : (s.writeBytes a xs).draws = s.draws := by
  obtain ⟨m, h⟩ := s.writeBytes_eq a xs; rw [h]; rfl
@[simp] theorem State.writeBytes_result (a : Nat) (xs : List Byte) : (s.writeBytes a xs).result = s.result := by
  obtain ⟨m, h⟩ := s.writeBytes_eq a xs; rw [h]; rfl

/-! ## Writing a result and the flag writes registers alone (R190) -/

@[simp] theorem State.setVWithFlag_mem (x : Nibble) (r : Byte) (f : Bool) : (s.setVWithFlag x r f).mem = s.mem := rfl
@[simp] theorem State.setVWithFlag_pc (x : Nibble) (r : Byte) (f : Bool) : (s.setVWithFlag x r f).pc = s.pc := rfl
@[simp] theorem State.setVWithFlag_i (x : Nibble) (r : Byte) (f : Bool) : (s.setVWithFlag x r f).i = s.i := rfl
@[simp] theorem State.setVWithFlag_stack (x : Nibble) (r : Byte) (f : Bool) : (s.setVWithFlag x r f).stack = s.stack := rfl
@[simp] theorem State.setVWithFlag_sp (x : Nibble) (r : Byte) (f : Bool) : (s.setVWithFlag x r f).sp = s.sp := rfl
@[simp] theorem State.setVWithFlag_dt (x : Nibble) (r : Byte) (f : Bool) : (s.setVWithFlag x r f).dt = s.dt := rfl
@[simp] theorem State.setVWithFlag_st (x : Nibble) (r : Byte) (f : Bool) : (s.setVWithFlag x r f).st = s.st := rfl
@[simp] theorem State.setVWithFlag_keys (x : Nibble) (r : Byte) (f : Bool) : (s.setVWithFlag x r f).keys = s.keys := rfl
@[simp] theorem State.setVWithFlag_pix (x : Nibble) (r : Byte) (f : Bool) : (s.setVWithFlag x r f).pix = s.pix := rfl
@[simp] theorem State.setVWithFlag_mode (x : Nibble) (r : Byte) (f : Bool) : (s.setVWithFlag x r f).mode = s.mode := rfl
@[simp] theorem State.setVWithFlag_waitX (x : Nibble) (r : Byte) (f : Bool) : (s.setVWithFlag x r f).waitX = s.waitX := rfl
@[simp] theorem State.setVWithFlag_keySnapshot (x : Nibble) (r : Byte) (f : Bool) : (s.setVWithFlag x r f).keySnapshot = s.keySnapshot := rfl
@[simp] theorem State.setVWithFlag_cfg (x : Nibble) (r : Byte) (f : Bool) : (s.setVWithFlag x r f).cfg = s.cfg := rfl
@[simp] theorem State.setVWithFlag_draws (x : Nibble) (r : Byte) (f : Bool) : (s.setVWithFlag x r f).draws = s.draws := rfl
@[simp] theorem State.setVWithFlag_result (x : Nibble) (r : Byte) (f : Bool) : (s.setVWithFlag x r f).result = s.result := rfl

/-! ## The call stack (R35) -/

@[simp] theorem State.pushReturn_mem (w : Word) : (s.pushReturn w).mem = s.mem := rfl
@[simp] theorem State.pushReturn_v (w : Word) : (s.pushReturn w).v = s.v := rfl
@[simp] theorem State.pushReturn_pc (w : Word) : (s.pushReturn w).pc = s.pc := rfl
@[simp] theorem State.pushReturn_i (w : Word) : (s.pushReturn w).i = s.i := rfl
@[simp] theorem State.pushReturn_dt (w : Word) : (s.pushReturn w).dt = s.dt := rfl
@[simp] theorem State.pushReturn_st (w : Word) : (s.pushReturn w).st = s.st := rfl
@[simp] theorem State.pushReturn_keys (w : Word) : (s.pushReturn w).keys = s.keys := rfl
@[simp] theorem State.pushReturn_pix (w : Word) : (s.pushReturn w).pix = s.pix := rfl
@[simp] theorem State.pushReturn_mode (w : Word) : (s.pushReturn w).mode = s.mode := rfl
@[simp] theorem State.pushReturn_waitX (w : Word) : (s.pushReturn w).waitX = s.waitX := rfl
@[simp] theorem State.pushReturn_keySnapshot (w : Word) : (s.pushReturn w).keySnapshot = s.keySnapshot := rfl
@[simp] theorem State.pushReturn_cfg (w : Word) : (s.pushReturn w).cfg = s.cfg := rfl
@[simp] theorem State.pushReturn_draws (w : Word) : (s.pushReturn w).draws = s.draws := rfl
@[simp] theorem State.pushReturn_result (w : Word) : (s.pushReturn w).result = s.result := rfl

/-! ## Popping keeps the slots (D30) -/

@[simp] theorem State.popReturn_mem : s.popReturn.mem = s.mem := rfl
@[simp] theorem State.popReturn_v : s.popReturn.v = s.v := rfl
@[simp] theorem State.popReturn_pc : s.popReturn.pc = s.pc := rfl
@[simp] theorem State.popReturn_i : s.popReturn.i = s.i := rfl
@[simp] theorem State.popReturn_stack : s.popReturn.stack = s.stack := rfl
@[simp] theorem State.popReturn_dt : s.popReturn.dt = s.dt := rfl
@[simp] theorem State.popReturn_st : s.popReturn.st = s.st := rfl
@[simp] theorem State.popReturn_keys : s.popReturn.keys = s.keys := rfl
@[simp] theorem State.popReturn_pix : s.popReturn.pix = s.pix := rfl
@[simp] theorem State.popReturn_mode : s.popReturn.mode = s.mode := rfl
@[simp] theorem State.popReturn_waitX : s.popReturn.waitX = s.waitX := rfl
@[simp] theorem State.popReturn_keySnapshot : s.popReturn.keySnapshot = s.keySnapshot := rfl
@[simp] theorem State.popReturn_cfg : s.popReturn.cfg = s.cfg := rfl
@[simp] theorem State.popReturn_draws : s.popReturn.draws = s.draws := rfl
@[simp] theorem State.popReturn_result : s.popReturn.result = s.result := rfl

/-! ## A skip writes pc alone (R163) -/

@[simp] theorem State.skipIf_mem (c : Bool) : (s.skipIf c).mem = s.mem := by
  rw [s.skipIf_eq]; rfl
@[simp] theorem State.skipIf_v (c : Bool) : (s.skipIf c).v = s.v := by
  rw [s.skipIf_eq]; rfl
@[simp] theorem State.skipIf_i (c : Bool) : (s.skipIf c).i = s.i := by
  rw [s.skipIf_eq]; rfl
@[simp] theorem State.skipIf_stack (c : Bool) : (s.skipIf c).stack = s.stack := by
  rw [s.skipIf_eq]; rfl
@[simp] theorem State.skipIf_sp (c : Bool) : (s.skipIf c).sp = s.sp := by
  rw [s.skipIf_eq]; rfl
@[simp] theorem State.skipIf_dt (c : Bool) : (s.skipIf c).dt = s.dt := by
  rw [s.skipIf_eq]; rfl
@[simp] theorem State.skipIf_st (c : Bool) : (s.skipIf c).st = s.st := by
  rw [s.skipIf_eq]; rfl
@[simp] theorem State.skipIf_keys (c : Bool) : (s.skipIf c).keys = s.keys := by
  rw [s.skipIf_eq]; rfl
@[simp] theorem State.skipIf_pix (c : Bool) : (s.skipIf c).pix = s.pix := by
  rw [s.skipIf_eq]; rfl
@[simp] theorem State.skipIf_mode (c : Bool) : (s.skipIf c).mode = s.mode := by
  rw [s.skipIf_eq]; rfl
@[simp] theorem State.skipIf_waitX (c : Bool) : (s.skipIf c).waitX = s.waitX := by
  rw [s.skipIf_eq]; rfl
@[simp] theorem State.skipIf_keySnapshot (c : Bool) : (s.skipIf c).keySnapshot = s.keySnapshot := by
  rw [s.skipIf_eq]; rfl
@[simp] theorem State.skipIf_cfg (c : Bool) : (s.skipIf c).cfg = s.cfg := by
  rw [s.skipIf_eq]; rfl
@[simp] theorem State.skipIf_draws (c : Bool) : (s.skipIf c).draws = s.draws := by
  rw [s.skipIf_eq]; rfl
@[simp] theorem State.skipIf_result (c : Bool) : (s.skipIf c).result = s.result := by
  rw [s.skipIf_eq]; rfl

/-! ## Moving the report writes the result alone (R131) -/

@[simp] theorem State.reportAt_mem (p : Word) : (s.reportAt p).mem = s.mem := by
  obtain ⟨r, h⟩ := s.reportAt_eq p; rw [h]; rfl
@[simp] theorem State.reportAt_v (p : Word) : (s.reportAt p).v = s.v := by
  obtain ⟨r, h⟩ := s.reportAt_eq p; rw [h]; rfl
@[simp] theorem State.reportAt_pc (p : Word) : (s.reportAt p).pc = s.pc := by
  obtain ⟨r, h⟩ := s.reportAt_eq p; rw [h]; rfl
@[simp] theorem State.reportAt_i (p : Word) : (s.reportAt p).i = s.i := by
  obtain ⟨r, h⟩ := s.reportAt_eq p; rw [h]; rfl
@[simp] theorem State.reportAt_stack (p : Word) : (s.reportAt p).stack = s.stack := by
  obtain ⟨r, h⟩ := s.reportAt_eq p; rw [h]; rfl
@[simp] theorem State.reportAt_sp (p : Word) : (s.reportAt p).sp = s.sp := by
  obtain ⟨r, h⟩ := s.reportAt_eq p; rw [h]; rfl
@[simp] theorem State.reportAt_dt (p : Word) : (s.reportAt p).dt = s.dt := by
  obtain ⟨r, h⟩ := s.reportAt_eq p; rw [h]; rfl
@[simp] theorem State.reportAt_st (p : Word) : (s.reportAt p).st = s.st := by
  obtain ⟨r, h⟩ := s.reportAt_eq p; rw [h]; rfl
@[simp] theorem State.reportAt_keys (p : Word) : (s.reportAt p).keys = s.keys := by
  obtain ⟨r, h⟩ := s.reportAt_eq p; rw [h]; rfl
@[simp] theorem State.reportAt_pix (p : Word) : (s.reportAt p).pix = s.pix := by
  obtain ⟨r, h⟩ := s.reportAt_eq p; rw [h]; rfl
@[simp] theorem State.reportAt_mode (p : Word) : (s.reportAt p).mode = s.mode := by
  obtain ⟨r, h⟩ := s.reportAt_eq p; rw [h]; rfl
@[simp] theorem State.reportAt_waitX (p : Word) : (s.reportAt p).waitX = s.waitX := by
  obtain ⟨r, h⟩ := s.reportAt_eq p; rw [h]; rfl
@[simp] theorem State.reportAt_keySnapshot (p : Word) : (s.reportAt p).keySnapshot = s.keySnapshot := by
  obtain ⟨r, h⟩ := s.reportAt_eq p; rw [h]; rfl
@[simp] theorem State.reportAt_cfg (p : Word) : (s.reportAt p).cfg = s.cfg := by
  obtain ⟨r, h⟩ := s.reportAt_eq p; rw [h]; rfl
@[simp] theorem State.reportAt_draws (p : Word) : (s.reportAt p).draws = s.draws := by
  obtain ⟨r, h⟩ := s.reportAt_eq p; rw [h]; rfl

@[simp] theorem State.getV_writeByte (b : Nat) (x : Byte) (j : Nibble) : (s.writeByte b x).getV j = s.getV j := State.getV_congr (by simp) j
@[simp] theorem State.getV_writeBytes (b : Nat) (xs : List Byte) (j : Nibble) : (s.writeBytes b xs).getV j = s.getV j := State.getV_congr (by simp) j
@[simp] theorem State.getV_pushReturn (w : Word) (j : Nibble) : (s.pushReturn w).getV j = s.getV j := State.getV_congr (by simp) j
@[simp] theorem State.getV_popReturn (j : Nibble) : s.popReturn.getV j = s.getV j := State.getV_congr (by simp) j
@[simp] theorem State.getV_skipIf (c : Bool) (j : Nibble) : (s.skipIf c).getV j = s.getV j := State.getV_congr (by simp) j
@[simp] theorem State.getV_reportAt (p : Word) (j : Nibble) : (s.reportAt p).getV j = s.getV j := State.getV_congr (by simp) j

@[simp] theorem State.readByte_setVWithFlag (x : Nibble) (r : Byte) (f : Bool) (a : Nat) : (s.setVWithFlag x r f).readByte a = s.readByte a :=
  State.readByte_congr (by simp) (by simp) a
@[simp] theorem State.readByte_pushReturn (w : Word) (a : Nat) : (s.pushReturn w).readByte a = s.readByte a :=
  State.readByte_congr (by simp) (by simp) a
@[simp] theorem State.readByte_popReturn (a : Nat) : s.popReturn.readByte a = s.readByte a :=
  State.readByte_congr (by simp) (by simp) a
@[simp] theorem State.readByte_skipIf (c : Bool) (a : Nat) : (s.skipIf c).readByte a = s.readByte a :=
  State.readByte_congr (by simp) (by simp) a
@[simp] theorem State.readByte_reportAt (p : Word) (a : Nat) : (s.reportAt p).readByte a = s.readByte a :=
  State.readByte_congr (by simp) (by simp) a

end Sys2Proof.Machine
end

