-- ==== Sys2Proof/Laws/Display.lean ====
section
/-! SUPPORT. The pixels after each display operation (43_display.md). -/

namespace Sys2Proof.Machine

/-- Reading pixel `(c', r')` after toggling `(c, r)`. -/
theorem Display.get_toggle (d : Display) (c c' : Fin 64) (r r' : Fin 32) :
    (d.toggle c r).get c' r' = if c' = c ∧ r' = r then !d.get c r else d.get c' r' := by
  by_cases hr : r' = r
  · subst hr
    by_cases hc : c' = c
    · subst hc; simp [Display.get, Display.toggle]
    · have : c.val ≠ c'.val := fun e => hc (Fin.ext e.symm)
      simp [Display.get, Display.toggle, hc, this]
  · have : r.val ≠ r'.val := fun e => hr (Fin.ext e.symm)
    simp [Display.get, Display.toggle, hr, this]

@[simp] theorem Display.get_clear (c : Fin 64) (r : Fin 32) : Display.clear.get c r = false := by
  simp [Display.get, Display.clear]

/-- Two grids with the same pixels are the same grid. -/
theorem Display.ext_get {d e : Display} (h : ∀ c r, d.get c r = e.get c r) : d = e := by
  apply Vector.ext
  intro r hr
  apply Vector.ext
  intro c hc
  exact h ⟨c, hc⟩ ⟨r, hr⟩

/-- The edge rule names pixel `(c, r)` exactly when the bit lands there (R232). -/
theorem place_eq_some (edge : DrawEdge) (u v : Nat) (c : Fin 64) (r : Fin 32) :
    place edge u v = some (c, r) ↔ landsOn edge u v c r := by
  cases edge with
  | wrap =>
    simp only [place, landsOn, Option.some.injEq, Prod.mk.injEq, Fin.ext_iff, Fin.ofNat]
    omega
  | clip =>
    simp only [place, landsOn]
    split
    · simp only [Option.some.injEq, Prod.mk.injEq, Fin.ext_iff]
      omega
    · have hc := c.isLt
      have hr := r.isLt
      simp only [reduceCtorEq, false_iff]
      omega

/-- One sprite bit: the pixel it lands on is toggled when the bit is 1, every other pixel stays (R231 step 5). -/
theorem drawBit_get (edge : DrawEdge) (u v : Nat) (bit : Bool) (acc : Display × Bool) (c : Fin 64) (r : Fin 32) :
    ((drawBit edge u v bit acc).1.get c r = !acc.1.get c r ∧ bit = true ∧ landsOn edge u v c r) ∨
    ((drawBit edge u v bit acc).1.get c r = acc.1.get c r ∧ ¬(bit = true ∧ landsOn edge u v c r)) := by
  cases bit with
  | false => exact .inr ⟨rfl, by simp⟩
  | true =>
    simp only [drawBit, if_true, true_and]
    cases hp : place edge u v with
    | none =>
      refine .inr ⟨rfl, fun hl => ?_⟩
      simp [(place_eq_some edge u v c r).mpr hl] at hp
    | some q =>
      obtain ⟨c1, r1⟩ := q
      by_cases h : c = c1 ∧ r = r1
      · obtain ⟨rfl, rfl⟩ := h
        exact .inl ⟨by simp [Display.get_toggle], (place_eq_some edge u v c r).mp hp⟩
      · refine .inr ⟨by simp [Display.get_toggle, h], fun hl => h ?_⟩
        have := ((place_eq_some edge u v c r).mpr hl).symm.trans hp
        simpa using this

/-- One sprite bit: the collision flag is raised exactly when a 1-bit lands on a pixel that is 1. -/
theorem drawBit_coll (edge : DrawEdge) (u v : Nat) (bit : Bool) (acc : Display × Bool) :
    (drawBit edge u v bit acc).2 = true ↔
      acc.2 = true ∨ (bit = true ∧ ∃ c r, landsOn edge u v c r ∧ acc.1.get c r = true) := by
  cases bit with
  | false => simp [drawBit]
  | true =>
    simp only [drawBit, if_true, true_and]
    cases hp : place edge u v with
    | none =>
      have : ∀ c r, ¬landsOn edge u v c r := fun c r hl => by
        simp [(place_eq_some edge u v c r).mpr hl] at hp
      simp [this]
    | some q =>
      obtain ⟨c1, r1⟩ := q
      have hl := (place_eq_some edge u v c1 r1).mp hp
      simp only [Bool.or_eq_true]
      refine or_congr_right ⟨fun hg => ⟨c1, r1, hl, hg⟩, ?_⟩
      rintro ⟨c, r, hl', hg⟩
      have := ((place_eq_some edge u v c r).mpr hl').symm.trans hp
      simp only [Option.some.injEq, Prod.mk.injEq] at this
      rwa [← this.1, ← this.2]

end Sys2Proof.Machine
end

