-- ==== Sys2Proof/Laws/Encoding.lean ====
section
/-! SUPPORT. The fields of the words the encoder builds, as numbers, so that omega closes field arithmetic. -/

namespace Sys2Proof

theorem Word.opField_toNat (w : Word) : w.opField.toNat = w.toNat / 4096 := by
  simp [Word.opField, BitVec.extractLsb'_toNat, Nat.shiftRight_eq_div_pow]
  omega

theorem Word.xField_toNat (w : Word) : w.xField.toNat = w.toNat / 256 % 16 := by
  simp [Word.xField, BitVec.extractLsb'_toNat, Nat.shiftRight_eq_div_pow]

theorem Word.yField_toNat (w : Word) : w.yField.toNat = w.toNat / 16 % 16 := by
  simp [Word.yField, BitVec.extractLsb'_toNat, Nat.shiftRight_eq_div_pow]

theorem Word.nField_toNat (w : Word) : w.nField.toNat = w.toNat % 16 := by
  simp [Word.nField, BitVec.extractLsb'_toNat]

theorem Word.kkField_toNat (w : Word) : w.kkField.toNat = w.toNat % 256 := by
  simp [Word.kkField, BitVec.extractLsb'_toNat]

theorem Word.nnnField_toNat (w : Word) : w.nnnField.toNat = w.toNat % 4096 := by
  simp [Word.nnnField, BitVec.extractLsb'_toNat]

theorem wordA_toNat (op : Nibble) (a : Addr12) : (wordA op a).toNat = op.toNat * 4096 + a.toNat :=
  (BitVec.toNat_append op a).trans (by rw [← Nat.shiftLeft_add_eq_or_of_lt a.isLt, Nat.shiftLeft_eq])

theorem wordXK_toNat (op x : Nibble) (kk : Byte) :
    (wordXK op x kk).toNat = op.toNat * 4096 + x.toNat * 256 + kk.toNat :=
  (BitVec.toNat_append (op ++ x) kk).trans (by
    rw [← Nat.shiftLeft_add_eq_or_of_lt kk.isLt, Nat.shiftLeft_eq, BitVec.toNat_append,
      ← Nat.shiftLeft_add_eq_or_of_lt x.isLt, Nat.shiftLeft_eq]
    omega)

theorem wordXYN_toNat (op x y n : Nibble) :
    (wordXYN op x y n).toNat = op.toNat * 4096 + x.toNat * 256 + y.toNat * 16 + n.toNat :=
  (BitVec.toNat_append (op ++ x ++ y) n).trans (by
    rw [← Nat.shiftLeft_add_eq_or_of_lt n.isLt, Nat.shiftLeft_eq, BitVec.toNat_append,
      ← Nat.shiftLeft_add_eq_or_of_lt y.isLt, Nat.shiftLeft_eq, BitVec.toNat_append,
      ← Nat.shiftLeft_add_eq_or_of_lt x.isLt, Nat.shiftLeft_eq]
    omega)

/-- Two bytes make the word whose more significant byte is the first (R74). -/
theorem wordOfBytes_toNat (hi lo : Byte) : (wordOfBytes hi lo).toNat = hi.toNat * 256 + lo.toNat :=
  (BitVec.toNat_append hi lo).trans (by rw [← Nat.shiftLeft_add_eq_or_of_lt lo.isLt, Nat.shiftLeft_eq])

/-- A word laid out in bytes and read back is the word. -/
theorem wordOfBytes_bytesOfWord (w : Word) : wordOfBytes (w.extractLsb' 8 8) (w.extractLsb' 0 8) = w := by
  apply BitVec.eq_of_toNat_eq
  rw [wordOfBytes_toNat]
  simp only [BitVec.extractLsb'_toNat, Nat.shiftRight_eq_div_pow]
  omega


/-- Masking with 0xF000 keeps the bits a row of that mask fixes. -/
theorem Word.and_F000 (w : Word) : w &&& 0xF000#16 = wordA w.opField 0 := by
  apply BitVec.eq_of_toNat_eq
  rw [wordA_toNat, Word.opField_toNat, BitVec.toNat_and]
  have := w.isLt
  have := Nat.and_div_two_pow (a := w.toNat) (b := 0xF000) (n := 12)
  have := Nat.and_mod_two_pow (a := w.toNat) (b := 0xF000) (n := 12)
  have := Nat.and_two_pow_sub_one_eq_mod (w.toNat / 4096) 4
  simp at *
  omega

/-- Masking with 0xF00F keeps the bits a row of that mask fixes. -/
theorem Word.and_F00F (w : Word) : w &&& 0xF00F#16 = wordXYN w.opField 0 0 w.nField := by
  apply BitVec.eq_of_toNat_eq
  rw [wordXYN_toNat, Word.opField_toNat, Word.nField_toNat, BitVec.toNat_and]
  have := w.isLt
  have := Nat.and_div_two_pow (a := w.toNat) (b := 0xF00F) (n := 12)
  have := Nat.and_mod_two_pow (a := w.toNat) (b := 0xF00F) (n := 12)
  have := Nat.and_two_pow_sub_one_eq_mod (w.toNat / 4096) 4
  have := Nat.and_two_pow_sub_one_eq_mod (w.toNat % 4096) 4
  simp at *
  omega

/-- Masking with 0xF0FF keeps the bits a row of that mask fixes. -/
theorem Word.and_F0FF (w : Word) : w &&& 0xF0FF#16 = wordXK w.opField 0 w.kkField := by
  apply BitVec.eq_of_toNat_eq
  rw [wordXK_toNat, Word.opField_toNat, Word.kkField_toNat, BitVec.toNat_and]
  have := w.isLt
  have := Nat.and_div_two_pow (a := w.toNat) (b := 0xF0FF) (n := 12)
  have := Nat.and_mod_two_pow (a := w.toNat) (b := 0xF0FF) (n := 12)
  have := Nat.and_two_pow_sub_one_eq_mod (w.toNat / 4096) 4
  have := Nat.and_two_pow_sub_one_eq_mod (w.toNat % 4096) 8
  simp at *
  omega

/-! The fields of a built word are the fields it was built from (R101, R102). -/

@[simp] theorem wordA_opField (op : Nibble) (a : Addr12) : (wordA op a).opField = op := by
  apply BitVec.eq_of_toNat_eq
  rw [Word.opField_toNat, wordA_toNat]
  omega

@[simp] theorem wordA_nnnField (op : Nibble) (a : Addr12) : (wordA op a).nnnField = a := by
  apply BitVec.eq_of_toNat_eq
  rw [Word.nnnField_toNat, wordA_toNat]
  omega

@[simp] theorem wordXK_opField (op x : Nibble) (kk : Byte) : (wordXK op x kk).opField = op := by
  apply BitVec.eq_of_toNat_eq
  rw [Word.opField_toNat, wordXK_toNat]
  omega

@[simp] theorem wordXK_xField (op x : Nibble) (kk : Byte) : (wordXK op x kk).xField = x := by
  apply BitVec.eq_of_toNat_eq
  rw [Word.xField_toNat, wordXK_toNat]
  omega

@[simp] theorem wordXK_kkField (op x : Nibble) (kk : Byte) : (wordXK op x kk).kkField = kk := by
  apply BitVec.eq_of_toNat_eq
  rw [Word.kkField_toNat, wordXK_toNat]
  omega

@[simp] theorem wordXYN_opField (op x y n : Nibble) : (wordXYN op x y n).opField = op := by
  apply BitVec.eq_of_toNat_eq
  rw [Word.opField_toNat, wordXYN_toNat]
  omega

@[simp] theorem wordXYN_xField (op x y n : Nibble) : (wordXYN op x y n).xField = x := by
  apply BitVec.eq_of_toNat_eq
  rw [Word.xField_toNat, wordXYN_toNat]
  omega

@[simp] theorem wordXYN_yField (op x y n : Nibble) : (wordXYN op x y n).yField = y := by
  apply BitVec.eq_of_toNat_eq
  rw [Word.yField_toNat, wordXYN_toNat]
  omega

@[simp] theorem wordXYN_nField (op x y n : Nibble) : (wordXYN op x y n).nField = n := by
  apply BitVec.eq_of_toNat_eq
  rw [Word.nField_toNat, wordXYN_toNat]
  omega

end Sys2Proof
end

