-- ==== Sys2Proof/Laws/Exec.lean ====
section
/-! SUPPORT. What an execute phase can do, said once per instruction (`exec_<constructor>`, for those with an error
case) and once for all of them (`exec_inversion`); then the same for a step. Later proofs cite these instead of unfolding
the meanings. -/

namespace Sys2Proof.Machine

variable (s t : State)

/-- R161. -/
theorem exec_callNnn (nnn : Addr12) : exec (.callNnn nnn) s =
    if s.cfg.stackDepth ≤ s.sp then raiseIn (.callNnn nnn) .stackOverflow none s
    else complete ((s.pushReturn s.pc).setPc (zextAddr nnn)) := rfl

/-- R162. -/
theorem exec_ret : exec .ret s =
    if s.sp = 0 then raiseIn .ret .stackUnderflow none s else complete (s.popReturn.setPc s.topReturn) := rfl

/-- R260. -/
theorem exec_skpVx (x : Nibble) : exec (.skpVx x) s =
    if (s.getV x).toNat > 15 then raiseIn (.skpVx x) .outOfBoundsAccess (some (s.getV x).toNat) s
    else complete (s.skipIf (s.keyPressed (s.getV x))) := rfl

/-- R261. -/
theorem exec_sknpVx (x : Nibble) : exec (.sknpVx x) s =
    if (s.getV x).toNat > 15 then raiseIn (.sknpVx x) .outOfBoundsAccess (some (s.getV x).toNat) s
    else complete (s.skipIf (!s.keyPressed (s.getV x))) := rfl

/-- R269. -/
theorem exec_ldBVx (x : Nibble) : exec (.ldBVx x) s =
    if s.i.toNat + 3 ≤ 4096 then complete (s.writeBytes s.i.toNat (bcdDigits (s.getV x)))
    else raiseIn (.ldBVx x) .outOfBoundsAccess (some (max s.i.toNat 4096)) s := by
  simp only [exec, execLdBVx, firstOutOfRange]
  by_cases h : s.i.toNat + 3 ≤ 4096 <;> simp [h]

/-- R270. -/
theorem exec_ldMemVx (x : Nibble) : exec (.ldMemVx x) s =
    if s.i.toNat + (x.toNat + 1) ≤ 4096 then complete (s.writeBytes s.i.toNat (s.regBlock x))
    else raiseIn (.ldMemVx x) .outOfBoundsAccess (some (max s.i.toNat 4096)) s := by
  simp only [exec, execLdMemVx, firstOutOfRange]
  by_cases h : s.i.toNat + (x.toNat + 1) ≤ 4096 <;> simp [h]

/-- R271. -/
theorem exec_ldVxMem (x : Nibble) : exec (.ldVxMem x) s =
    if s.i.toNat + (x.toNat + 1) ≤ 4096 then complete (s.setRegs (s.loadBlock x))
    else raiseIn (.ldVxMem x) .outOfBoundsAccess (some (max s.i.toNat 4096)) s := by
  simp only [exec, execLdVxMem, firstOutOfRange]
  by_cases h : s.i.toNat + (x.toNat + 1) ≤ 4096 <;> simp [h]

/-- The grid and collision flag a DRW leaves (R231). -/
abbrev State.drawn (x y n : Nibble) : Display × Bool :=
  drawSprite s.cfg.drawEdge (s.getV x).toNat (s.getV y).toNat (s.readBytes s.i.toNat n.toNat) s.pix

/-- R231. -/
theorem exec_drwVxVyN (x y n : Nibble) : exec (.drwVxVyN x y n) s =
    if n.toNat = 0 ∨ s.i.toNat + n.toNat ≤ 4096 then
      complete ((s.setPix (s.drawn x y n).1).setV regF (flagByte (s.drawn x y n).2))
    else raiseIn (.drwVxVyN x y n) .outOfBoundsAccess (some (max s.i.toNat 4096)) s := by
  simp only [exec, execDrwVxVyN, firstOutOfRange]
  by_cases h : n.toNat = 0 ∨ s.i.toNat + n.toNat ≤ 4096
  · rw [if_pos h, if_pos h]
  · rw [if_neg h, if_neg h]

/-- The state an instruction that does not raise leaves, before its result is set to Ok. -/
def okEffect (i : Instr) : State :=
  match i with
  | .cls => s.setPix Display.clear
  | .ret => s.popReturn.setPc s.topReturn
  | .sys _ => s
  | .jpNnn nnn => s.setPc (zextAddr nnn)
  | .callNnn nnn => (s.pushReturn s.pc).setPc (zextAddr nnn)
  | .seVxKk x kk => s.skipIf (s.getV x == kk)
  | .sneVxKk x kk => s.skipIf (s.getV x != kk)
  | .seVxVy x y => s.skipIf (s.getV x == s.getV y)
  | .ldVxKk x kk => s.setV x kk
  | .addVxKk x kk => s.setV x (s.getV x + kk)
  | .ldVxVy x y => s.setV x (s.getV y)
  | .orVxVy x y => s.setV x (s.getV x ||| s.getV y)
  | .andVxVy x y => s.setV x (s.getV x &&& s.getV y)
  | .xorVxVy x y => s.setV x (s.getV x ^^^ s.getV y)
  | .addVxVy x y => s.setVWithFlag x (s.getV x + s.getV y) (carryOut (s.getV x) (s.getV y))
  | .subVxVy x y => s.setVWithFlag x (s.getV x - s.getV y) (noBorrow (s.getV x) (s.getV y))
  | .shrVx x _ => s.setVWithFlag x (s.getV x >>> 1) (shiftedOutRight (s.getV x))
  | .subnVxVy x y => s.setVWithFlag x (s.getV y - s.getV x) (noBorrow (s.getV y) (s.getV x))
  | .shlVx x _ => s.setVWithFlag x (s.getV x <<< 1) (shiftedOutLeft (s.getV x))
  | .sneVxVy x y => s.skipIf (s.getV x != s.getV y)
  | .ldINnn nnn => s.setI (zextAddr nnn)
  | .jpV0Nnn nnn => s.setPc (zextAddr nnn + zextByte (s.getV 0))
  | .rndVxKk x kk => s.countDraw.setV x (s.randomByte &&& kk)
  | .drwVxVyN x y n => (s.setPix (s.drawn x y n).1).setV regF (flagByte (s.drawn x y n).2)
  | .skpVx x => s.skipIf (s.keyPressed (s.getV x))
  | .sknpVx x => s.skipIf (!s.keyPressed (s.getV x))
  | .ldVxDt x => s.setV x s.dt
  | .ldVxK x => s.setWait .awaitKeyPress x s.keys
  | .ldDtVx x => s.setDt (s.getV x)
  | .ldStVx x => s.setSt (s.getV x)
  | .addIVx x => s.setI (s.i + zextByte (s.getV x))
  | .ldFVx x => s.setI (glyphAddress s.cfg (s.getV x))
  | .ldBVx x => s.writeBytes s.i.toNat (bcdDigits (s.getV x))
  | .ldMemVx x => s.writeBytes s.i.toNat (s.regBlock x)
  | .ldVxMem x => s.setRegs (s.loadBlock x)

/-- The error an instruction raises in a state, if any: its kind and offending address (R136, R161, R162, R231, R260,
R261, R269 to R271, R306). -/
def errorOf (i : Instr) : Option (ErrorKind × Option Nat) :=
  match i with
  | .sys _ => some (.unsupportedOpcode, none)
  | .callNnn _ => if s.cfg.stackDepth ≤ s.sp then some (.stackOverflow, none) else none
  | .ret => if s.sp = 0 then some (.stackUnderflow, none) else none
  | .skpVx x => if (s.getV x).toNat > 15 then some (.outOfBoundsAccess, some (s.getV x).toNat) else none
  | .sknpVx x => if (s.getV x).toNat > 15 then some (.outOfBoundsAccess, some (s.getV x).toNat) else none
  | .drwVxVyN _ _ n => if n.toNat = 0 ∨ s.i.toNat + n.toNat ≤ 4096 then none
      else some (.outOfBoundsAccess, some (max s.i.toNat 4096))
  | .ldBVx _ => if s.i.toNat + 3 ≤ 4096 then none else some (.outOfBoundsAccess, some (max s.i.toNat 4096))
  | .ldMemVx x => if s.i.toNat + (x.toNat + 1) ≤ 4096 then none
      else some (.outOfBoundsAccess, some (max s.i.toNat 4096))
  | .ldVxMem x => if s.i.toNat + (x.toNat + 1) ≤ 4096 then none
      else some (.outOfBoundsAccess, some (max s.i.toNat 4096))
  | .cls | .jpNnn _ | .seVxKk _ _ | .sneVxKk _ _ | .seVxVy _ _ | .ldVxKk _ _ | .addVxKk _ _ | .ldVxVy _ _
  | .orVxVy _ _ | .andVxVy _ _ | .xorVxVy _ _ | .addVxVy _ _ | .subVxVy _ _ | .shrVx _ _ | .subnVxVy _ _
  | .shlVx _ _ | .sneVxVy _ _ | .ldINnn _ | .jpV0Nnn _ | .rndVxKk _ _ | .ldVxDt _ | .ldVxK _ | .ldDtVx _ | .ldStVx _
  | .addIVx _ | .ldFVx _ => none

/-- THE INVERSION LEMMA: an execute phase raises exactly `errorOf`, leaving the state as it was, or completes with
`okEffect`. -/
theorem exec_inversion (i : Instr) :
    exec i s = match errorOf s i with
      | some (kind, addr) => raiseIn i kind addr s
      | none => complete (okEffect s i) := by
  cases i <;> simp only [errorOf, okEffect]
  case callNnn nnn => rw [exec_callNnn]; split <;> rfl
  case ret => rw [exec_ret]; split <;> rfl
  case skpVx x => rw [exec_skpVx]; split <;> rfl
  case sknpVx x => rw [exec_sknpVx]; split <;> rfl
  case drwVxVyN x y n => rw [exec_drwVxVyN]; split <;> rfl
  case ldBVx x => rw [exec_ldBVx]; split <;> rfl
  case ldMemVx x => rw [exec_ldMemVx]; split <;> rfl
  case ldVxMem x => rw [exec_ldVxMem]; split <;> rfl
  all_goals rfl

/-- What an answered execute phase says about the next state. -/
theorem exec_next {i : Instr} {s t : State} (h : exec i s = .next t) :
    (∃ kind addr, errorOf s i = some (kind, addr) ∧ t = s.setResult (.error ⟨kind, some (encode i), s.pc, addr⟩)) ∨
    (errorOf s i = none ∧ t = (okEffect s i).setResult .ok) := by
  rw [exec_inversion] at h
  split at h
  · rename_i k a he
    exact .inl ⟨k, a, he, ((raiseIn_eq_next _ _ _ _ _).mp h).symm⟩
  · rename_i he
    exact .inr ⟨he, ((complete_eq_next _ _).mp h).symm⟩

/-- `dispatch` is an execute phase or the unsupported-word error (R134, R135). -/
theorem dispatch_next {w : Word} {s t : State} (h : dispatch w s = .next t) :
    (∃ i, decodeWord w = .ok i ∧ exec i s = .next t) ∨
    (∃ e, decodeWord w = .error e ∧ t = s.setResult (.error ⟨.unsupportedOpcode, some w, s.pc, none⟩)) := by
  unfold dispatch at h
  split at h
  · exact .inl ⟨_, ‹_›, h⟩
  · exact .inr ⟨_, ‹_›, ((raise_eq_next _ _ _ _ _).mp h).symm⟩

/-- Everything a step can do (R131): a key capture, the fetch-range error, or a dispatch whose report is moved. -/
theorem step_next {s t : State} (h : step s = .next t) :
    (s.mode = .awaitKeyPress ∧ t = s.keyCapture.setResult .ok) ∨
    (s.mode = .running ∧ 4094 < s.pc.toNat ∧
      t = s.setResult (.error ⟨.outOfBoundsAccess, none, s.pc, some (max s.pc.toNat 4096)⟩)) ∨
    (s.mode = .running ∧ s.pc.toNat ≤ 4094 ∧
      ∃ u, dispatch s.fetchWord (s.setPc (s.pc + 2)) = .next u ∧ t = u.reportAt s.pc) := by
  unfold step cycle at h
  split at h
  · exact .inl ⟨‹_›, ((complete_eq_next _ _).mp h).symm⟩
  · split at h
    · exact .inr (.inl ⟨‹_›, ‹_›, ((raise_eq_next _ _ _ _ _).mp h).symm⟩)
    · obtain ⟨u, hu, rfl⟩ := (mapNext_eq_next _ _ _).mp h
      exact .inr (.inr ⟨‹_›, by omega, u, hu, rfl⟩)

end Sys2Proof.Machine
end

