-- ==== Sys2Proof/Laws/PerInstr.lean ====
section
/-! SUPPORT. The family MatchesRow: every instruction's word, whatever its operands, matches its own row of the opcode
table (30_encoding.md R104). One lemma per constructor. -/

namespace Sys2Proof.Laws.MatchesRow

/-- `(encode i & mask) = match`. -/
def Statement (i : Instr) : Prop := matchesRow (encode i) i

theorem cls : Statement .cls := by unfold Statement; decide
theorem ret : Statement .ret := by unfold Statement; decide
theorem sys (nnn : Addr12) : Statement (.sys nnn) := by rw [Statement, matchesRow, encode, tableRow, Word.and_F000]; simp; rfl
theorem jpNnn (nnn : Addr12) : Statement (.jpNnn nnn) := by rw [Statement, matchesRow, encode, tableRow, Word.and_F000]; simp; rfl
theorem callNnn (nnn : Addr12) : Statement (.callNnn nnn) := by rw [Statement, matchesRow, encode, tableRow, Word.and_F000]; simp; rfl
theorem seVxKk (x : Nibble) (kk : Byte) : Statement (.seVxKk x kk) := by rw [Statement, matchesRow, encode, tableRow, Word.and_F000]; simp; rfl
theorem sneVxKk (x : Nibble) (kk : Byte) : Statement (.sneVxKk x kk) := by rw [Statement, matchesRow, encode, tableRow, Word.and_F000]; simp; rfl
theorem seVxVy (x y : Nibble) : Statement (.seVxVy x y) := by rw [Statement, matchesRow, encode, tableRow, Word.and_F00F]; simp; rfl
theorem ldVxKk (x : Nibble) (kk : Byte) : Statement (.ldVxKk x kk) := by rw [Statement, matchesRow, encode, tableRow, Word.and_F000]; simp; rfl
theorem addVxKk (x : Nibble) (kk : Byte) : Statement (.addVxKk x kk) := by rw [Statement, matchesRow, encode, tableRow, Word.and_F000]; simp; rfl
theorem ldVxVy (x y : Nibble) : Statement (.ldVxVy x y) := by rw [Statement, matchesRow, encode, tableRow, Word.and_F00F]; simp; rfl
theorem orVxVy (x y : Nibble) : Statement (.orVxVy x y) := by rw [Statement, matchesRow, encode, tableRow, Word.and_F00F]; simp; rfl
theorem andVxVy (x y : Nibble) : Statement (.andVxVy x y) := by rw [Statement, matchesRow, encode, tableRow, Word.and_F00F]; simp; rfl
theorem xorVxVy (x y : Nibble) : Statement (.xorVxVy x y) := by rw [Statement, matchesRow, encode, tableRow, Word.and_F00F]; simp; rfl
theorem addVxVy (x y : Nibble) : Statement (.addVxVy x y) := by rw [Statement, matchesRow, encode, tableRow, Word.and_F00F]; simp; rfl
theorem subVxVy (x y : Nibble) : Statement (.subVxVy x y) := by rw [Statement, matchesRow, encode, tableRow, Word.and_F00F]; simp; rfl
theorem shrVx (x y : Nibble) : Statement (.shrVx x y) := by rw [Statement, matchesRow, encode, tableRow, Word.and_F00F]; simp; rfl
theorem subnVxVy (x y : Nibble) : Statement (.subnVxVy x y) := by rw [Statement, matchesRow, encode, tableRow, Word.and_F00F]; simp; rfl
theorem shlVx (x y : Nibble) : Statement (.shlVx x y) := by rw [Statement, matchesRow, encode, tableRow, Word.and_F00F]; simp; rfl
theorem sneVxVy (x y : Nibble) : Statement (.sneVxVy x y) := by rw [Statement, matchesRow, encode, tableRow, Word.and_F00F]; simp; rfl
theorem ldINnn (nnn : Addr12) : Statement (.ldINnn nnn) := by rw [Statement, matchesRow, encode, tableRow, Word.and_F000]; simp; rfl
theorem jpV0Nnn (nnn : Addr12) : Statement (.jpV0Nnn nnn) := by rw [Statement, matchesRow, encode, tableRow, Word.and_F000]; simp; rfl
theorem rndVxKk (x : Nibble) (kk : Byte) : Statement (.rndVxKk x kk) := by rw [Statement, matchesRow, encode, tableRow, Word.and_F000]; simp; rfl
theorem drwVxVyN (x y n : Nibble) : Statement (.drwVxVyN x y n) := by rw [Statement, matchesRow, encode, tableRow, Word.and_F000]; simp; rfl
theorem skpVx (x : Nibble) : Statement (.skpVx x) := by rw [Statement, matchesRow, encode, tableRow, Word.and_F0FF]; simp; rfl
theorem sknpVx (x : Nibble) : Statement (.sknpVx x) := by rw [Statement, matchesRow, encode, tableRow, Word.and_F0FF]; simp; rfl
theorem ldVxDt (x : Nibble) : Statement (.ldVxDt x) := by rw [Statement, matchesRow, encode, tableRow, Word.and_F0FF]; simp; rfl
theorem ldVxK (x : Nibble) : Statement (.ldVxK x) := by rw [Statement, matchesRow, encode, tableRow, Word.and_F0FF]; simp; rfl
theorem ldDtVx (x : Nibble) : Statement (.ldDtVx x) := by rw [Statement, matchesRow, encode, tableRow, Word.and_F0FF]; simp; rfl
theorem ldStVx (x : Nibble) : Statement (.ldStVx x) := by rw [Statement, matchesRow, encode, tableRow, Word.and_F0FF]; simp; rfl
theorem addIVx (x : Nibble) : Statement (.addIVx x) := by rw [Statement, matchesRow, encode, tableRow, Word.and_F0FF]; simp; rfl
theorem ldFVx (x : Nibble) : Statement (.ldFVx x) := by rw [Statement, matchesRow, encode, tableRow, Word.and_F0FF]; simp; rfl
theorem ldBVx (x : Nibble) : Statement (.ldBVx x) := by rw [Statement, matchesRow, encode, tableRow, Word.and_F0FF]; simp; rfl
theorem ldMemVx (x : Nibble) : Statement (.ldMemVx x) := by rw [Statement, matchesRow, encode, tableRow, Word.and_F0FF]; simp; rfl
theorem ldVxMem (x : Nibble) : Statement (.ldVxMem x) := by rw [Statement, matchesRow, encode, tableRow, Word.and_F0FF]; simp; rfl

end Sys2Proof.Laws.MatchesRow
end

