-- ==== Sys2Proof/Tests/Slice0.lean ====
section
/-! SUPPORT. The model's own tests. Expected results are those of spec/95_test_vectors.md (the vector is named) or worked
by hand from the rule named; the `witness_` theorems show, for each statement with hypotheses, concrete states and operands
that meet all of them. -/

namespace Sys2Proof.Tests

set_option Elab.async false

open Sys2Proof Sys2Proof.Machine

/-! ## Helpers -/

/-- The default parameters with a known NO_KEY_VALUE, so that a test can be evaluated whole. -/
def cfg : Config := { Config.default with noKeyValue := 0x55 }

/-- Reset under `cfg`, with `pc` as a fetch at 0x200 leaves it. -/
def s0 : State := (State.resetWith cfg).setPc 0x202

/-- The register file with `V[0] = a`, `V[1] = b`, `V[F] = f`. -/
def withV (a b f : Byte) (s : State) : State := ((s.setV 0 a).setV 1 b).setV 15 f

/-- The outcome is a next state with `p`. -/
def after (o : Host.Outcome State Fault Refusal) (p : State → Bool) : Bool :=
  match o with
  | .next t => p t
  | .fault _ => false
  | .refused _ => false

/-- The state an outcome holds. -/
def stateOf (o : Host.Outcome State Fault Refusal) : State :=
  match o with
  | .next t => t
  | .fault _ => s0
  | .refused _ => s0

/-- The result is an error of this kind and address. -/
def isError (k : ErrorKind) (a : Option Nat) (t : State) : Bool :=
  match t.result with
  | .ok => false
  | .error r => r.kind == k && r.addr == a

/-- All of `on` are 1 and all of `off` are 0. -/
def shows (d : Display) (on off : List (Fin 64 × Fin 32)) : Bool :=
  on.all (fun p => d.get p.1 p.2) && off.all (fun p => !d.get p.1 p.2)

/-- The pixels of a list set to 1 on an empty grid. -/
def dots (ps : List (Fin 64 × Fin 32)) : Display := ps.foldl (fun d p => d.toggle p.1 p.2) Display.clear

/-- Waiting for a key as the vectors B6 start: `wait_x = 3`, `key_snapshot = 0x0001`, `K = keys`. -/
def waiting (m : KeyWaitMode) (keys : Word) : State :=
  (({ s0 with cfg := { cfg with keyWaitMode := m } } : State).setWait .awaitKeyPress 3 1).setKeys keys

/-! ## Well-formedness smoke: R105's two words are never SYS -/

theorem test_wellFormed_refuses_sys_cls : (Instr.sys 0x0E0).wellFormed = false := by decide
theorem test_wellFormed_refuses_sys_ret : (Instr.sys 0x0EE).wellFormed = false := by decide
theorem test_wellFormed_sys : (Instr.sys 0x0E1).wellFormed = true := by decide

/-! ## Decoding: each word is written out from the encoding of its row (30_encoding.md R102, R104) -/

theorem test_decode_cls : decodeTableWord 16 0x00E0 = some .cls := by decide
theorem test_decode_ret : decodeTableWord 16 0x00EE = some .ret := by decide
theorem test_decode_sys : decodeTableWord 16 0x0123 = some (.sys 0x123) := by decide
theorem test_decode_jpNnn : decodeTableWord 16 0x1ABC = some (.jpNnn 0xABC) := by decide
theorem test_decode_callNnn : decodeTableWord 16 0x220E = some (.callNnn 0x20E) := by decide
theorem test_decode_seVxKk : decodeTableWord 16 0x3A42 = some (.seVxKk 0xA 0x42) := by decide
theorem test_decode_sneVxKk : decodeTableWord 16 0x4A42 = some (.sneVxKk 0xA 0x42) := by decide
theorem test_decode_seVxVy : decodeTableWord 16 0x5AB0 = some (.seVxVy 0xA 0xB) := by decide
theorem test_decode_ldVxKk : decodeTableWord 16 0x6AAB = some (.ldVxKk 0xA 0xAB) := by decide
theorem test_decode_addVxKk : decodeTableWord 16 0x7F01 = some (.addVxKk 0xF 0x01) := by decide
theorem test_decode_ldVxVy : decodeTableWord 16 0x8AB0 = some (.ldVxVy 0xA 0xB) := by decide
theorem test_decode_orVxVy : decodeTableWord 16 0x8AB1 = some (.orVxVy 0xA 0xB) := by decide
theorem test_decode_andVxVy : decodeTableWord 16 0x8AB2 = some (.andVxVy 0xA 0xB) := by decide
theorem test_decode_xorVxVy : decodeTableWord 16 0x8AB3 = some (.xorVxVy 0xA 0xB) := by decide
theorem test_decode_addVxVy : decodeTableWord 16 0x8AB4 = some (.addVxVy 0xA 0xB) := by decide
theorem test_decode_subVxVy : decodeTableWord 16 0x8AB5 = some (.subVxVy 0xA 0xB) := by decide
theorem test_decode_shrVx : decodeTableWord 16 0x8AB6 = some (.shrVx 0xA 0xB) := by decide
theorem test_decode_subnVxVy : decodeTableWord 16 0x8AB7 = some (.subnVxVy 0xA 0xB) := by decide
theorem test_decode_shlVx : decodeTableWord 16 0x8ABE = some (.shlVx 0xA 0xB) := by decide
theorem test_decode_sneVxVy : decodeTableWord 16 0x9AB0 = some (.sneVxVy 0xA 0xB) := by decide
theorem test_decode_ldINnn : decodeTableWord 16 0xA123 = some (.ldINnn 0x123) := by decide
theorem test_decode_jpV0Nnn : decodeTableWord 16 0xBFFF = some (.jpV0Nnn 0xFFF) := by decide
theorem test_decode_rndVxKk : decodeTableWord 16 0xC00F = some (.rndVxKk 0 0x0F) := by decide
theorem test_decode_drwVxVyN : decodeTableWord 16 0xD345 = some (.drwVxVyN 3 4 5) := by decide
theorem test_decode_skpVx : decodeTableWord 16 0xEA9E = some (.skpVx 0xA) := by decide
theorem test_decode_sknpVx : decodeTableWord 16 0xEAA1 = some (.sknpVx 0xA) := by decide
theorem test_decode_ldVxDt : decodeTableWord 16 0xF307 = some (.ldVxDt 3) := by decide
theorem test_decode_ldVxK : decodeTableWord 16 0xF30A = some (.ldVxK 3) := by decide
theorem test_decode_ldDtVx : decodeTableWord 16 0xF315 = some (.ldDtVx 3) := by decide
theorem test_decode_ldStVx : decodeTableWord 16 0xF118 = some (.ldStVx 1) := by decide
theorem test_decode_addIVx : decodeTableWord 16 0xF31E = some (.addIVx 3) := by decide
theorem test_decode_ldFVx : decodeTableWord 16 0xF129 = some (.ldFVx 1) := by decide
theorem test_decode_ldBVx : decodeTableWord 16 0xFA33 = some (.ldBVx 0xA) := by decide
theorem test_decode_ldMemVx : decodeTableWord 16 0xFF55 = some (.ldMemVx 0xF) := by decide
theorem test_decode_ldVxMem : decodeTableWord 16 0xF265 = some (.ldVxMem 2) := by decide

/-- B1 #7: words of the unsupported space that the decoder rejects. -/
theorem test_decode_rejects :
    [0x5011, 0x8008, 0x800F, 0x9001, 0xE000, 0xE09F, 0xF000, 0xF01F, 0xF0FF].all
      (fun w => (decodeTableWord 16 w).isNone) = true := by decide

theorem test_decode_truncated : decodeBytes [0x60] = .error .truncated := by decide

/-- B1 #9: the fields of 0x8AB4. -/
theorem test_fields_8AB4 :
    Word.opField 0x8AB4 = 8 ∧ Word.xField 0x8AB4 = 0xA ∧ Word.yField 0x8AB4 = 0xB ∧ Word.nField 0x8AB4 = 4 ∧
    Word.kkField 0x8AB4 = 0xB4 ∧ Word.nnnField 0x8AB4 = 0xAB4 := by decide

/-! ## One step of each instruction -/

/-- R136. -/
theorem test_sys_raises :
    after (exec (.sys 0x123) s0) (fun t => isError .unsupportedOpcode none t && t.pc == 0x202) = true := by decide +kernel

/-- B2 #1. -/
theorem test_jp :
    after (exec (.jpNnn 0xABC) s0) (fun t => t.pc == 0x0ABC) = true := by decide +kernel

/-- B2 #3. -/
theorem test_call_pushes :
    after (exec (.callNnn 0x400) (s0.setPc 0x206)) (fun t => t.pc == 0x400 && t.sp == 1 && t.stack[0]? == some 0x206) = true := by decide +kernel

/-- B2 #4. -/
theorem test_call_overflow :
    after (exec (.callNnn 0x400) (s0.setStack s0.stack 16)) (fun t => isError .stackOverflow none t && t.sp == 16 && t.pc == 0x202) = true := by decide +kernel

/-- B2 #5. -/
theorem test_ret_pops :
    after (exec .ret (s0.setStack [0x206, 0x999] 1)) (fun t => t.pc == 0x206 && t.sp == 0 && t.stack == [0x206, 0x999]) = true := by decide +kernel

/-- B2 #6. -/
theorem test_ret_underflow :
    after (exec .ret s0) (fun t => isError .stackUnderflow none t && t.pc == 0x202) = true := by decide +kernel

/-- B2 #15. -/
theorem test_se_kk_wraps :
    after (exec (.seVxKk 0 0) (s0.setPc 0xFFFE)) (fun t => t.pc == 0) = true := by decide +kernel

/-- B2 #8. -/
theorem test_se_kk_no_skip :
    after (exec (.seVxKk 0 0x42) (withV 0x41 0 0 s0)) (fun t => t.pc == 0x202) = true := by decide +kernel

/-- B2 #9. -/
theorem test_sne_kk_no_skip :
    after (exec (.sneVxKk 0 0x42) (withV 0x42 0 0 s0)) (fun t => t.pc == 0x202) = true := by decide +kernel

/-- B2 #10. -/
theorem test_sne_kk_skips :
    after (exec (.sneVxKk 0 0x42) (withV 0x41 0 0 s0)) (fun t => t.pc == 0x204) = true := by decide +kernel

/-- B2 #11. -/
theorem test_se_reg_skips :
    after (exec (.seVxVy 0 1) (withV 3 3 0 s0)) (fun t => t.pc == 0x204) = true := by decide +kernel

/-- B2 #12. -/
theorem test_se_reg_no_skip :
    after (exec (.seVxVy 0 1) (withV 3 4 0 s0)) (fun t => t.pc == 0x202) = true := by decide +kernel

/-- B2 #13. -/
theorem test_sne_reg_no_skip :
    after (exec (.sneVxVy 0 1) (withV 3 3 0 s0)) (fun t => t.pc == 0x202) = true := by decide +kernel

/-- B2 #14. -/
theorem test_sne_reg_skips :
    after (exec (.sneVxVy 0 1) (withV 3 4 0 s0)) (fun t => t.pc == 0x204) = true := by decide +kernel

/-- B2 #16. -/
theorem test_jp_v0_past_memory :
    after (exec (.jpV0Nnn 0xFFF) (withV 0xFF 0 0 s0)) (fun t => t.pc == 0x10FE) = true := by decide +kernel

/-- B3 #1. -/
theorem test_ld_kk :
    after (exec (.ldVxKk 0xA 0xAB) s0) (fun t => t.getV 0xA == 0xAB) = true := by decide +kernel

/-- B3 #2. -/
theorem test_add_kk_wraps :
    after (exec (.addVxKk 0 0xFF) (withV 2 0 7 s0)) (fun t => t.getV 0 == 1 && t.getV 15 == 7) = true := by decide +kernel

/-- B3 #3. -/
theorem test_add_kk_vf :
    after (exec (.addVxKk 15 1) (withV 0 0 0xFF s0)) (fun t => t.getV 15 == 0) = true := by decide +kernel

/-- B3 #4. -/
theorem test_ld_reg :
    after (exec (.ldVxVy 0 1) (withV 0 0x42 0 s0)) (fun t => t.getV 0 == 0x42) = true := by decide +kernel

/-- B3 #5. -/
theorem test_or :
    after (exec (.orVxVy 0 1) (withV 0xF0 0x0F 0x55 s0)) (fun t => t.getV 0 == 0xFF && t.getV 15 == 0x55) = true := by decide +kernel

/-- B3 #6. -/
theorem test_and :
    after (exec (.andVxVy 0 1) (withV 0xF0 0x3C 0x55 s0)) (fun t => t.getV 0 == 0x30 && t.getV 15 == 0x55) = true := by decide +kernel

/-- B3 #7. -/
theorem test_xor :
    after (exec (.xorVxVy 0 1) (withV 0xFF 0x0F 0x55 s0)) (fun t => t.getV 0 == 0xF0 && t.getV 15 == 0x55) = true := by decide +kernel

/-- B3 #10. -/
theorem test_add_255_no_carry :
    after (exec (.addVxVy 0 1) (withV 0x7F 0x80 1 s0)) (fun t => t.getV 0 == 0xFF && t.getV 15 == 0) = true := by decide +kernel

/-- B3 #11. -/
theorem test_add_vf_flag_wins :
    after (exec (.addVxVy 15 1) (withV 0 0xF5 0x10 s0)) (fun t => t.getV 15 == 1) = true := by decide +kernel

/-- B3 #14. -/
theorem test_sub_equal :
    after (exec (.subVxVy 0 1) (withV 5 5 1 s0)) (fun t => t.getV 0 == 0 && t.getV 15 == 0) = true := by decide +kernel

/-- B3 #16. -/
theorem test_sub_no_borrow :
    after (exec (.subVxVy 0 1) (withV 0xFF 0 0 s0)) (fun t => t.getV 0 == 0xFF && t.getV 15 == 1) = true := by decide +kernel

/-- B3 #19. -/
theorem test_subn_borrow :
    after (exec (.subnVxVy 0 1) (withV 1 0 1 s0)) (fun t => t.getV 0 == 0xFF && t.getV 15 == 0) = true := by decide +kernel

/-- B3 #20. -/
theorem test_subn_no_borrow :
    after (exec (.subnVxVy 0 1) (withV 0 0xFF 0 s0)) (fun t => t.getV 0 == 0xFF && t.getV 15 == 1) = true := by decide +kernel

/-- B3 #21. -/
theorem test_shr :
    after (exec (.shrVx 0 1) (withV 1 0xAA 0 s0)) (fun t => t.getV 0 == 0 && t.getV 1 == 0xAA && t.getV 15 == 1) = true := by decide +kernel

/-- B3 #23. -/
theorem test_shr_vf :
    after (exec (.shrVx 15 0) (withV 0 0 3 s0)) (fun t => t.getV 15 == 1) = true := by decide +kernel

/-- B3 #24. -/
theorem test_shl :
    after (exec (.shlVx 0 1) (withV 0x80 0x55 0 s0)) (fun t => t.getV 0 == 0 && t.getV 1 == 0x55 && t.getV 15 == 1) = true := by decide +kernel

/-- B3 #26. -/
theorem test_shl_vf :
    after (exec (.shlVx 15 0) (withV 0 0 0x81 s0)) (fun t => t.getV 15 == 1) = true := by decide +kernel

/-- B3 #28: whatever the free byte, the mask 0 gives 0; the draw is counted. -/
theorem test_rnd_masked :
    ∃ t, exec (.rndVxKk 0 0) s0 = .next t ∧ t.getV 0 = 0 ∧ t.draws = 1 :=
  ⟨_, rfl, BitVec.and_zero, rfl⟩

/-- B4 #1. -/
theorem test_cls :
    after (exec .cls (withV 0 0 7 (s0.setPix (dots [(3, 3)])))) (fun t => shows t.pix [] [(3, 3), (0, 0), (63, 31)] && t.getV 15 == 7) = true := by decide +kernel

/-- The start of B4 #2 and #3. -/
def corner (e : DrawEdge) : State :=
  (withV 63 31 0 ({ s0 with cfg := { cfg with drawEdge := e }, i := 0x300 } : State)).writeBytes 0x300 [0xC0, 0xC0]

/-- B4 #2. -/
theorem test_drw_wraps :
    after (exec (.drwVxVyN 0 1 2) (corner .wrap)) (fun t => shows t.pix [(63, 31), (0, 31), (63, 0), (0, 0)] [(62, 31), (1, 0), (63, 1)] && t.getV 15 == 0) = true := by decide +kernel

/-- B4 #3. -/
theorem test_drw_clips :
    after (exec (.drwVxVyN 0 1 2) (corner .clip)) (fun t => shows t.pix [(63, 31)] [(0, 31), (63, 0), (0, 0)] && t.getV 15 == 0) = true := by decide +kernel

/-- B5 #1. -/
theorem test_skp_pressed :
    after (exec (.skpVx 0) ((withV 7 0 0 s0).setKeys 0x0080)) (fun t => t.pc == 0x204) = true := by decide +kernel

/-- B5 #5. -/
theorem test_skp_no_such_key :
    after (exec (.skpVx 0) ((withV 16 0 0 s0).setKeys 0xFFFF)) (fun t => isError .outOfBoundsAccess (some 16) t && t.pc == 0x202) = true := by decide +kernel

/-- B5 #3. -/
theorem test_sknp_pressed :
    after (exec (.sknpVx 0) ((withV 15 0 0 s0).setKeys 0x8000)) (fun t => t.pc == 0x202) = true := by decide +kernel

/-- B5 #4. -/
theorem test_sknp_not_pressed :
    after (exec (.sknpVx 0) s0) (fun t => t.pc == 0x204) = true := by decide +kernel

/-- B5 #6. -/
theorem test_ld_from_dt :
    after (exec (.ldVxDt 3) (s0.setDt 0x3C)) (fun t => t.getV 3 == 0x3C && t.dt == 0x3C) = true := by decide +kernel

/-- B5 #7. -/
theorem test_ld_dt :
    after (exec (.ldDtVx 0) (withV 7 0 0 s0)) (fun t => t.dt == 7 && t.st == 0) = true := by decide +kernel

/-- B5 #8. -/
theorem test_ld_st :
    after (exec (.ldStVx 1) (withV 0 0x10 0 s0)) (fun t => t.st == 0x10 && t.dt == 0) = true := by decide +kernel

/-- B5 #9. -/
theorem test_add_i_wraps :
    after (exec (.addIVx 0) ((withV 1 0 0 s0).setI 0xFFFF)) (fun t => t.i == 0) = true := by decide +kernel

/-- B5 #10. -/
theorem test_add_i_past_memory :
    after (exec (.addIVx 0) ((withV 0xFF 0 3 s0).setI 0x0FFF)) (fun t => t.i == 0x10FE && t.getV 15 == 3) = true := by decide +kernel

/-- B5 #11. -/
theorem test_ld_i :
    after (exec (.ldINnn 0x123) (s0.setI 0x300)) (fun t => t.i == 0x123) = true := by decide +kernel

/-- B5 #12. -/
theorem test_ld_f :
    after (exec (.ldFVx 0) (withV 0x1A 0 0 s0)) (fun t => t.i == 0x032) = true := by decide +kernel

/-- By hand from R269 (program P3): 254 is 2, 5, 4. -/
theorem test_bcd_254 :
    after (exec (.ldBVx 0) ((withV 254 0 0 s0).setI 0xFFD)) (fun t => t.readBytes 0xFFD 3 == [2, 5, 4]) = true := by decide +kernel

/-- B5 #19. -/
theorem test_bcd_past_memory :
    after (exec (.ldBVx 0) ((withV 255 0 0 s0).setI 0xFFE)) (fun t => isError .outOfBoundsAccess (some 4096) t && t.mem == []) = true := by decide +kernel

/-- `V[j] = 0x10 + j` (B5 #20). -/
def counting : State := s0.setRegs (Vector.ofFn fun j => BitVec.ofNat 8 (0x10 + j.val))

/-- B5 #20. -/
theorem test_store_all :
    after (exec (.ldMemVx 15) (counting.setI 0xFF0)) (fun t => t.readBytes 0xFF0 16 == (List.range 16).map (fun j => BitVec.ofNat 8 (0x10 + j)) && t.i == 0xFF0) = true := by decide +kernel

/-- B5 #21. -/
theorem test_store_past_memory :
    after (exec (.ldMemVx 15) (counting.setI 0xFF1)) (fun t => isError .outOfBoundsAccess (some 4096) t && t.mem == []) = true := by decide +kernel

/-- B5 #22. -/
theorem test_load_all :
    after (exec (.ldVxMem 15) s0) (fun t => t.v.toList == [0xF0, 0x90, 0x90, 0x90, 0xF0, 0x20, 0x60, 0x20, 0x20, 0x70, 0xF0, 0x10, 0xF0, 0x80, 0xF0, 0xF0]) = true := by decide +kernel

/-- B5 #23. -/
theorem test_load_past_memory :
    after (exec (.ldVxMem 0) (s0.setI 0x1000)) (fun t => isError .outOfBoundsAccess (some 4096) t) = true := by decide +kernel

/-- B5 #25. -/
theorem test_ld_key_waits :
    after (exec (.ldVxK 3) (s0.setKeys 1)) (fun t => t.mode == .awaitKeyPress && t.waitX == 3 && t.keySnapshot == 1 && t.pc == 0x202) = true := by decide +kernel

/-! ## Steps, the key capture, the host -/

/-- B1 #1. -/
theorem test_step_last_word :
    after (step ((s0.setPc 0x0FFE).writeBytes 0x0FFE [0x60, 0x11])) (fun t => t.getV 0 == 0x11 && t.pc == 0x1000) = true := by decide +kernel

/-- B1 #4. -/
theorem test_step_fetch_past_memory :
    after (step (s0.setPc 0x10FE)) (fun t => isError .outOfBoundsAccess (some 0x10FE) t && t.pc == 0x10FE) = true := by decide +kernel

/-- B1 #6. -/
theorem test_step_unsupported :
    after (step ((s0.setPc 0x200).writeBytes 0x200 [0x80, 0x08])) (fun t => t.pc == 0x202 &&
      t.result == .error { kind := .unsupportedOpcode, opcode := some 0x8008, pc := 0x200, addr := none }) = true := by decide +kernel

/-- P6, cycle 17. -/
theorem test_step_overflow_report :
    after (step (((s0.setPc 0x200).setStack s0.stack 16).writeBytes 0x200 [0x22, 0x00])) (fun t => t.pc == 0x202 &&
      t.result == .error { kind := .stackOverflow, opcode := some 0x2200, pc := 0x200, addr := none }) = true := by decide +kernel

/-- The step after `withFetchWord` at reset runs that word (B3 #1). -/
theorem test_withFetchWord_runs :
    after (step (State.reset.withFetchWord 16 0x6AAB)) (fun t => t.getV 0xA == 0xAB && t.pc == 0x202) = true := by decide +kernel

/-- B6 #3. -/
theorem test_capture_edge_new_key :
    after (step (waiting .edge 0x0081)) (fun t => t.getV 3 == 7 && t.mode == .running && t.pc == 0x202) = true := by decide +kernel

/-- B6 #2. -/
theorem test_capture_edge_held_key :
    after (step (waiting .edge 0)) (fun t => t.mode == .awaitKeyPress && t.keySnapshot == 0) = true := by decide +kernel

/-- B6 #7. -/
theorem test_capture_level :
    after (step (waiting .level 0x0900)) (fun t => t.getV 3 == 8) = true := by decide +kernel

/-- B6 #8; the word is ignored (R132). -/
theorem test_capture_snapshot :
    after (execute 0x6005 (waiting .snapshot 0)) (fun t => t.getV 3 == 0x55 && t.mode == .running && t.getV 0 == 0) = true := by decide +kernel

/-- B7 #1. -/
theorem test_tick :
    ((tickTimers (s0.setDt 1)).dt == 0 && (tickTimers (s0.setDt 1)).st == 0) = true := by decide +kernel

/-- B7 #5. -/
theorem test_load_program_rejects :
    after (loadProgram [1, 2] 0xFFF s0) (fun t => isError .outOfBoundsAccess (some 4096) t && t.mem == []) = true := by decide +kernel

/-- B7 #7. -/
theorem test_load_program_empty :
    after (loadProgram [] 0x5000 s0) (fun t => t.result == .ok && t.mem == []) = true := by decide +kernel

/-- B7 #8. -/
theorem test_set_key :
    (getKeyState (setKeyState 7 true s0)).getLsbD 7 = true := by decide +kernel

/-- B7 #9. -/
theorem test_flat_display : (displayFlat (s0.setPix (dots [(5, 2)])))[133] = true := by
  unfold displayFlat
  rw [Vector.getElem_ofFn]
  decide +kernel

/-- R312, D28: `setPC(0x12345)` leaves 0x2345. -/
theorem test_set_pc_reduces : (hostSetPc 0x12345 s0).pc = 0x2345 := by decide

/-- R77: glyphs 7 and F of the table, at 0x023 and 0x04B after reset. -/
theorem test_font_bytes :
    State.reset.readBytes 0x023 5 = [0xF0, 0x10, 0x20, 0x40, 0x40] ∧
    State.reset.readBytes 0x04B 5 = [0xF0, 0x80, 0xF0, 0x80, 0x80] := by decide +kernel

/-! ## Witnesses: the hypotheses of each statement are met together -/

theorem inv_of_reset_memory (s : State) (hm : s.mem = []) (hs : s.stack.length = s.cfg.stackDepth)
    (hd : s.sp ≤ s.cfg.stackDepth) (hc : 0 < s.cfg.stackDepth) : s.Inv :=
  ⟨by rw [hm]; exact ⟨.nil, by simp⟩, hs, hd, hc⟩

/-- ResetMeetsTheInvariant. -/
theorem witness_admissible : cfg.Admissible ∧ Config.default.Admissible := by decide

/-- DecodeInvertsEncode. -/
theorem witness_wellFormed : (Instr.sys 0xFFF).wellFormed = true ∧ (Instr.drwVxVyN 15 15 15).wellFormed = true := by decide

/-- DecodedWordIsItsEncoding, DecodeSelectsTheMatchingRow: a word, its row, and no row's word that matches SYS too. -/
theorem witness_decodes :
    decodeWord 0x00EE = .ok .ret ∧ matchesRow 0x00EE (.sys 0x0EE) ∧ decodeWord 0xF265 = .ok (.ldVxMem 2) ∧
    matchesRow 0xF265 (.ldVxMem 7) := ⟨rfl, by decide, rfl, by decide⟩

/-- DecoderRejectsExactlyUnsupportedWords, UnsupportedWordRaises: a word of each unsupported family. -/
theorem witness_unsupported :
    UnsupportedWord 0x5011 ∧ UnsupportedWord 0x8008 ∧ UnsupportedWord 0x9001 ∧ UnsupportedWord 0xE000 ∧
    UnsupportedWord 0xF0FF ∧ decodeWord 0x5011 = .error (.unsupportedFamily5 0x5011) :=
  ⟨by simp [UnsupportedWord], by simp [UnsupportedWord], by simp [UnsupportedWord], by simp [UnsupportedWord],
    by simp [UnsupportedWord], rfl⟩

/-- The state of B1 #6: the unsupported word 0x8008 at 0x200. -/
def unsupportedAt : State := (s0.setPc 0x200).writeBytes 0x200 [0x80, 0x08]

/-- UnsupportedWordRaises, its fetch clause; StepRunsTheDecodedInstruction at the last word of memory. -/
theorem witness_fetch :
    (unsupportedAt.mode = .running ∧ unsupportedAt.pc.toNat ≤ 4094 ∧
      (unsupportedAt.readByte unsupportedAt.pc.toNat).toNat * 256 +
        (unsupportedAt.readByte (unsupportedAt.pc.toNat + 1)).toNat = (0x8008#16).toNat) ∧
    ∃ s : State, s.mode = .running ∧ s.pc.toNat = 4094 ∧
      decodeBytes [s.readByte s.pc.toNat, s.readByte (s.pc.toNat + 1)] = .ok (.ldVxKk 0 0x11, []) :=
  ⟨by decide +kernel, (s0.setPc 0x0FFE).writeBytes 0x0FFE [0x60, 0x11], rfl, rfl, rfl⟩

/-- StepRunsTheDecodedInstruction: both clauses of `reportAt`, and the raw entry. -/
theorem witness_report :
    s0.result = .ok ∧ (∃ r, (stateOf (exec .ret s0)).result = .error r) ∧
    s0.mode = .running ∧ decodeWord 0x00EE = .ok .ret := ⟨rfl, ⟨_, rfl⟩, rfl, rfl⟩

/-- FetchPastMemoryRaises at both sides of the case in the address. -/
theorem witness_fetch_past_memory :
    (s0.setPc 0x0FFF).mode = .running ∧ 4094 < (s0.setPc 0x0FFF).pc.toNat ∧
    (s0.setPc 0x1000).mode = .running ∧ 4094 < (s0.setPc 0x1000).pc.toNat := by decide

theorem s0_inv : s0.Inv := inv_of_reset_memory s0 rfl rfl (by decide) (by decide)

/-- StepKeepsTheInvariant, HostScheduleKeepsTheInvariant. -/
theorem witness_step :
    s0.Inv ∧ (∃ t, step s0 = .next t) ∧ ∃ t, runHost [.tickTimers, .setKeyState 3 true, .cycle, .reset] s0 = .next t :=
  ⟨s0_inv, ⟨_, rfl⟩, ⟨_, rfl⟩⟩

/-- ErrorsArePrecise, both clauses, the fetch error and an instruction's; ErrorsAriseOnlyInTheStatedCases, each case. -/
theorem witness_errors :
    (∃ t r, exec (.sys 0) s0 = .next t ∧ t.result = .error r ∧ r.kind = .unsupportedOpcode) ∧
    (∃ t r, exec (.callNnn 0) (s0.setStack s0.stack 16) = .next t ∧ t.result = .error r ∧ r.kind = .stackOverflow) ∧
    (∃ t r, exec .ret s0 = .next t ∧ t.result = .error r ∧ r.kind = .stackUnderflow) ∧
    (∃ t r, exec (.ldBVx 0) (s0.setI 0xFFE) = .next t ∧ t.result = .error r ∧ r.kind = .outOfBoundsAccess) ∧
    (∃ t r, exec (.skpVx 0) (withV 16 0 0 s0) = .next t ∧ t.result = .error r ∧ r.kind = .outOfBoundsAccess) ∧
    (∃ t r, step (s0.setPc 0x1000) = .next t ∧ t.result = .error r ∧ r.opcode = none) ∧
    (∃ t r, step s0 = .next t ∧ t.result = .error r ∧ r.opcode = some 0) :=
  ⟨⟨_, _, rfl, rfl, rfl⟩, ⟨_, _, rfl, rfl, rfl⟩, ⟨_, _, rfl, rfl, rfl⟩, ⟨_, _, rfl, rfl, rfl⟩, ⟨_, _, rfl, rfl, rfl⟩,
    ⟨_, _, rfl, rfl, rfl⟩, ⟨_, _, rfl, rfl, rfl⟩⟩

/-- Key wait at 0x202. -/
def keyWaitAt : State := s0.writeBytes 0x202 [0xF3, 0x0A]

/-- ModeChangesOnlyAtWaitAndCapture: the wait through `exec` and through `step`, a capture, an error, a program load. -/
theorem witness_mode :
    (∃ t, exec (.ldVxK 3) s0 = .next t ∧ t.mode ≠ s0.mode) ∧
    (∃ t, step keyWaitAt = .next t ∧ keyWaitAt.mode = .running ∧ t.mode ≠ keyWaitAt.mode) ∧
    (∃ t, (waiting .edge 0x0081).mode = .awaitKeyPress ∧ step (waiting .edge 0x0081) = .next t) ∧
    (∃ t, (waiting .edge 0).mode = .awaitKeyPress ∧ execute 0x6005 (waiting .edge 0) = .next t) ∧
    (∃ t r, step (s0.setPc 0x1000) = .next t ∧ t.result = .error r) ∧
    (∃ t, loadProgram [1, 2] 0xFFE s0 = .next t) :=
  ⟨⟨_, rfl, by decide⟩, ⟨stateOf (step keyWaitAt), rfl, rfl, by decide +kernel⟩, ⟨_, rfl, rfl⟩, ⟨_, rfl, rfl⟩,
    ⟨_, _, rfl, rfl⟩, ⟨_, rfl⟩⟩

/-- EachPieceHasItsOnlyWriters: each piece is written by one of its writers. -/
theorem witness_writers :
    (∃ t, exec (.ldMemVx 0) ((withV 7 0 0 s0).setI 0x300) = .next t ∧ t.readByte 0x300 ≠ s0.readByte 0x300) ∧
    (∃ t, exec (.drwVxVyN 0 0 1) s0 = .next t ∧ t.pix.get 0 0 ≠ s0.pix.get 0 0) ∧
    (∃ t, exec (.ldINnn 7) s0 = .next t ∧ t.i ≠ s0.i) ∧ (∃ t, exec (.callNnn 0) s0 = .next t ∧ t.sp ≠ s0.sp) ∧
    (∃ t, exec (.ldDtVx 0) (withV 7 0 0 s0) = .next t ∧ t.dt ≠ s0.dt) ∧
    (∃ t, exec (.ldStVx 0) (withV 7 0 0 s0) = .next t ∧ t.st ≠ s0.st) ∧
    (∃ t, exec (.ldVxK 0) s0 = .next t ∧ t.mode ≠ s0.mode) ∧
    (∃ t, exec (.rndVxKk 0 0) s0 = .next t ∧ t.draws ≠ s0.draws) ∧
    (∃ t, exec (.ldVxKk 3 7) s0 = .next t ∧ t.getV 3 ≠ s0.getV 3) ∧
    (∃ t, exec (.jpNnn 0) s0 = .next t ∧ t.pc ≠ s0.pc) :=
  ⟨⟨stateOf (exec (.ldMemVx 0) ((withV 7 0 0 s0).setI 0x300)), rfl, by decide +kernel⟩,
    ⟨stateOf (exec (.drwVxVyN 0 0 1) s0), rfl, by decide +kernel⟩,
    ⟨_, rfl, by decide⟩, ⟨_, rfl, by decide⟩, ⟨_, rfl, by decide⟩, ⟨_, rfl, by decide⟩, ⟨_, rfl, by decide⟩,
    ⟨_, rfl, by decide⟩, ⟨_, rfl, by decide⟩, ⟨_, rfl, by decide⟩⟩

/-- FlagRegisterHasItsOnlyWriters. -/
theorem witness_flag : ∃ t, exec (.addVxVy 0 1) (withV 0xFF 1 0 s0) = .next t ∧ t.getV 15 ≠ (withV 0xFF 1 0 s0).getV 15 :=
  ⟨_, rfl, by decide +kernel⟩

/-- 7 stored at 0x300, then 9 at 0x301, then the reset byte 0 back at 0x301. -/
def storedAndBack : Memory :=
  Memory.write (resetByte cfg) (Memory.write (resetByte cfg) (Memory.write (resetByte cfg) [] 0x300 7) 0x301 9) 0x301 0

/-- CanonicalMemoriesReadingAlikeAreEqual: a memory whose second byte was written back, and one never written there. -/
theorem witness_canonical :
    Memory.wf (resetByte cfg) storedAndBack ∧ Memory.wf (resetByte cfg) [(0x300, 7)] ∧
    ∀ a, Memory.read (resetByte cfg) storedAndBack a = Memory.read (resetByte cfg) [(0x300, 7)] a := by
  have h : storedAndBack = [(0x300, 7)] := by decide
  exact ⟨by rw [h]; decide, by decide, fun a => by rw [h]⟩

/-- CallPushesAndJumps: one below capacity, and at capacity. -/
theorem witness_call :
    (s0.setStack s0.stack 15).Inv ∧ (s0.setStack s0.stack 15).sp < (s0.setStack s0.stack 15).cfg.stackDepth ∧
    (s0.setStack s0.stack 16).Inv ∧ (s0.setStack s0.stack 16).sp = (s0.setStack s0.stack 16).cfg.stackDepth :=
  ⟨inv_of_reset_memory _ rfl rfl (by decide) (by decide), by decide,
    inv_of_reset_memory _ rfl rfl (by decide) (by decide), by decide⟩

/-- RetPopsIntoPc: depth 16 and depth 0. -/
theorem witness_ret :
    (s0.setStack s0.stack 16).Inv ∧ 0 < (s0.setStack s0.stack 16).sp ∧ s0.Inv ∧ s0.sp = 0 :=
  ⟨inv_of_reset_memory _ rfl rfl (by decide) (by decide), by decide, s0_inv, rfl⟩

/-- RetComesBackFromCall: RET straight after CALL. -/
theorem witness_call_ret :
    ∃ t v, s0.Inv ∧ exec (.callNnn 0x400) s0 = .next t ∧ t.result = .ok ∧ exec .ret t = .next v :=
  ⟨_, _, s0_inv, rfl, rfl, rfl⟩

/-- KeySkipsFollowTheKeyboard at both sides of its bound. -/
theorem witness_key_skips : ((withV 15 0 0 s0).getV 0).toNat ≤ 15 ∧ 15 < ((withV 16 0 0 s0).getV 0).toNat := by
  decide +kernel

/-- AddSetsCarry, SubtractSetsNoBorrow, ShiftsSetTheBitShiftedOut: their inner hypotheses on register numbers. -/
theorem witness_register_numbers : (0 : Nibble) ≠ 0xF#4 ∧ (1 : Nibble) ≠ 0 ∧ (1 : Nibble) ≠ 0xF#4 := by decide

/-- DrawXorsTheSprite: no rows far past memory, the last rows that fit, the first that do not. -/
theorem witness_draw :
    (0#4 = 0 ∨ (0xFFFF#16).toNat + (0#4).toNat ≤ 4096) ∧
    ((2#4 = 0 ∨ (0xFFE#16).toNat + (2#4).toNat ≤ 4096) ∧ SpriteCovers ((s0.setI 0xFFE).writeByte 0xFFF 1) 0 0 2 7 1) ∧
    (2#4 ≠ 0 ∧ 4096 < (0xFFF#16).toNat + (2#4).toNat) ∧ ¬SpriteCovers s0 0 0 0 0 0 :=
  ⟨by decide, ⟨by decide, ⟨1, 7, by decide, by decide, by decide +kernel, (by decide : 7 = 7 % 64 ∧ 1 = 1 % 32)⟩⟩, by decide,
    fun ⟨_, _, h, _⟩ => absurd h (by simp)⟩

/-- Glyph 0 drawn once, and the state it is drawn on again. -/
def drawnOnce : State := stateOf (exec (.drwVxVyN 0 1 5) s0)
def drawAgain : State := s0.setPix drawnOnce.pix

/-- DrawingTwiceRestoresTheDisplay. -/
theorem witness_draw_twice :
    ∃ v, exec (.drwVxVyN 0 1 5) s0 = .next drawnOnce ∧ drawnOnce.result = .ok ∧ drawAgain.getV 0 = s0.getV 0 ∧
      drawAgain.getV 1 = s0.getV 1 ∧ drawAgain.i = s0.i ∧ (∀ a, drawAgain.readByte a = s0.readByte a) ∧
      drawAgain.cfg = s0.cfg ∧ (∀ c r, drawAgain.pix.get c r = drawnOnce.pix.get c r) ∧
      exec (.drwVxVyN 0 1 5) drawAgain = .next v ∧ v.result = .ok :=
  ⟨_, rfl, rfl, rfl, rfl, rfl, fun _ => rfl, rfl, fun _ _ => rfl, rfl, rfl⟩

/-- ClearThenDrawLeavesTheSprite. -/
theorem witness_clear_draw :
    ∃ t u, exec .cls s0 = .next t ∧ exec (.drwVxVyN 0 0 5) t = .next u ∧ u.result = .ok := ⟨_, _, rfl, rfl, rfl⟩

/-- KeyCaptureFollowsItsMode: each mode, with a key that ends the wait and without. -/
theorem witness_capture :
    (waiting .edge 0x0081).mode = .awaitKeyPress ∧
    IsLowestSet ((waiting .edge 0x0081).keys &&& ~~~(waiting .edge 0x0081).keySnapshot) 7 ∧
    (∀ k, k < 16 → (waiting .edge 1).keys.getLsbD k = true → (waiting .edge 1).keySnapshot.getLsbD k = true) ∧
    IsLowestSet (waiting .level 0x0900).keys 8 ∧ (waiting .level 0).keys = 0 ∧
    IsLowestSet (waiting .snapshot 0x8000).keys 15 ∧ (waiting .snapshot 0).keys = 0 :=
  ⟨rfl, by unfold IsLowestSet; decide +kernel, by decide +kernel, by unfold IsLowestSet; decide +kernel, rfl,
    by unfold IsLowestSet; decide +kernel, rfl⟩

theorem setI_inv (w : Word) : (s0.setI w).Inv := inv_of_reset_memory _ rfl rfl (Nat.zero_le _) (Nat.zero_lt_succ _)

/-- BcdStoresThreeDigits, BlockStoreWritesRegisters, BlockLoadReadsRegisters: the last place that fits and the first that
does not. -/
theorem witness_transfers :
    (s0.setI 0xFFD).Inv ∧ (s0.setI 0xFFD).i.toNat + 2 ≤ 4095 ∧ (s0.setI 0xFFE).Inv ∧ 4095 < (s0.setI 0xFFE).i.toNat + 2 ∧
    (s0.setI 0xFF0).Inv ∧ (s0.setI 0xFF0).i.toNat + (15#4).toNat ≤ 4095 ∧
    (s0.setI 0xFF1).Inv ∧ 4095 < (s0.setI 0xFF1).i.toNat + (15#4).toNat :=
  ⟨setI_inv _, by decide, setI_inv _, by decide, setI_inv _, by decide, setI_inv _, by decide⟩

/-- BlockStoreThenLoadGivesBack. -/
theorem witness_store_load :
    ∃ t u v, (s0.setI 0xFF0).Inv ∧ exec (.ldMemVx 15) (s0.setI 0xFF0) = .next t ∧ t.result = .ok ∧ u.i = t.i ∧
      (∀ a, u.readByte a = t.readByte a) ∧ exec (.ldVxMem 15) u = .next v :=
  ⟨_, _, _, setI_inv _, rfl, rfl, rfl, fun _ => rfl, rfl⟩

/-- StoresAreSeenByTheNextFetch, at the word at 0x202: LD [I] over its second byte alone, LD B over its first alone (the
ones digit), the host's load over both, and the last place in memory where each fits. -/
theorem witness_store_fetch :
    ((withV 7 0 0 (s0.setI 0x203)).Inv ∧ (withV 7 0 0 (s0.setI 0x203)).i.toNat + (0#4).toNat ≤ 4095 ∧
      wordAfterStore (withV 7 0 0 (s0.setI 0x203)) 0x203 1
        (fun k => ((withV 7 0 0 (s0.setI 0x203)).getV (BitVec.ofNat 4 k)).toNat) = 7) ∧
    ((withV 254 0 0 (s0.setI 0x200)).Inv ∧ (withV 254 0 0 (s0.setI 0x200)).i.toNat + 2 ≤ 4095 ∧
      wordAfterStore (withV 254 0 0 (s0.setI 0x200)) 0x200 3
        (fun k => ((withV 254 0 0 (s0.setI 0x200)).getV 0).toNat / 10 ^ (2 - k) % 10) = 0x0400) ∧
    (s0.Inv ∧ 0x202 + [0x12#8, 0x34#8].length ≤ 4096 ∧
      wordAfterStore s0 0x202 2 (fun k => ([0x12#8, 0x34#8].getD k 0).toNat) = 0x1234) ∧
    (s0.setI 0xFF0).i.toNat + (15#4).toNat = 4095 ∧ (s0.setI 0xFFD).i.toNat + 2 = 4095 :=
  ⟨⟨inv_of_reset_memory _ rfl rfl (Nat.zero_le _) (Nat.zero_lt_succ _), by decide, by decide +kernel⟩,
    ⟨inv_of_reset_memory _ rfl rfl (Nat.zero_le _) (Nat.zero_lt_succ _), by decide, by decide +kernel⟩,
    ⟨s0_inv, by decide, by decide +kernel⟩, by decide, by decide⟩

/-- LoadProgramIsAllOrNothing: an image that ends at 4095, the empty image past memory, one that does not fit. -/
theorem witness_load_program :
    s0.Inv ∧ 0xFFE + [1#8, 2#8].length ≤ 4096 ∧ (([] : List Byte) = [] ∨ 0x5000 + ([] : List Byte).length ≤ 4096) ∧
    [1#8, 2#8] ≠ [] ∧ 4096 < 0xFFF + [1#8, 2#8].length := ⟨s0_inv, by decide, by decide, by decide, by decide⟩

end Sys2Proof.Tests
end

section
/-! SUPPORT. The mode (10_state.md R40, 40_fetch_dispatch.md R137, R140): what an execute phase, a dispatch, a step, a key
capture and a host operation each make of it, and O18, which is assembled from these. -/

namespace Sys2Proof.Machine

variable {s t : State}

/-! ## Execute phase and dispatch -/

/-- No instruction but LD Vx, K has an effect on the mode (R268). -/
theorem okEffect_mode (s : State) (i : Instr) : (okEffect s i).mode = s.mode ∨ ∃ x, i = .ldVxK x := by
  cases i
  case ldVxK x => exact .inr ⟨x, rfl⟩
  all_goals exact .inl (by simp [okEffect])

/-- An execute phase that changes the mode completes, and is that of LD Vx, K. -/
theorem exec_mode {i : Instr} (h : exec i s = .next t) :
    t.mode = s.mode ∨ (t.result = .ok ∧ ∃ x, i = .ldVxK x) := by
  rcases exec_next h with ⟨_, _, _, rfl⟩ | ⟨_, rfl⟩
  · exact .inl rfl
  · exact (okEffect_mode s i).imp id (⟨rfl, ·⟩)

/-- A dispatch that changes the mode completes, and its word is that of LD Vx, K. -/
theorem dispatch_mode {w : Word} (h : dispatch w s = .next t) :
    t.mode = s.mode ∨ (t.result = .ok ∧ ∃ x, decodeWord w = .ok (.ldVxK x)) := by
  rcases dispatch_next h with ⟨i, hi, he⟩ | ⟨_, _, rfl⟩
  · rcases exec_mode he with hm | ⟨hok, x, rfl⟩
    · exact .inl hm
    · exact .inr ⟨hok, x, hi⟩
  · exact .inl rfl

/-! ## Key capture -/

/-- A key capture ends the wait with some value in `V[wait_x]`, or writes the snapshot alone (R137). -/
theorem State.keyCapture_cases (s : State) :
    (∃ b, s.keyCapture = s.capture b) ∨ ∃ k, s.keyCapture = s.setWait s.mode s.waitX k := by
  unfold State.keyCapture
  split
  · unfold State.captureEdge
    split
    · exact .inl ⟨_, rfl⟩
    · exact .inr ⟨_, rfl⟩
  · unfold State.captureLevel
    split
    · exact .inl ⟨_, rfl⟩
    · exact .inr ⟨s.keySnapshot, rfl⟩
  · exact .inl ⟨_, rfl⟩

theorem State.capture_capturedValue (s : State) (b : Byte) :
    CapturedValue s ((s.capture b).setResult .ok) b.toNat :=
  ⟨rfl, by simp [State.capture], fun j hj => by simp [State.capture, State.getV_setV_ne s hj], rfl, rfl⟩

theorem State.setWait_stillWaiting (hm : s.mode = .awaitKeyPress) (k : Word) :
    StillWaiting s ((s.setWait s.mode s.waitX k).setResult .ok) k :=
  ⟨hm, fun _ => rfl, rfl, rfl⟩

/-- From AwaitKeyPress a key capture leads to Running, with `V[wait_x]` written, or back to the wait. -/
theorem State.keyCapture_captures_or_waits (hm : s.mode = .awaitKeyPress) :
    (∃ value, CapturedValue s (s.keyCapture.setResult .ok) value) ∨
      ∃ snapshot, StillWaiting s (s.keyCapture.setResult .ok) snapshot := by
  rcases s.keyCapture_cases with ⟨b, hb⟩ | ⟨k, hk⟩
  · rw [hb]; exact .inl ⟨_, s.capture_capturedValue b⟩
  · rw [hk]; exact .inr ⟨_, State.setWait_stillWaiting hm k⟩

/-! ## The step entries -/

theorem step_of_awaitKeyPress (hm : s.mode = .awaitKeyPress) : step s = complete s.keyCapture := by
  simp [step, cycle, hm]

/-- In AwaitKeyPress the raw entry ignores its word (R132). -/
theorem execute_of_awaitKeyPress (w : Word) (hm : s.mode = .awaitKeyPress) : execute w s = complete s.keyCapture := by
  simp [execute, hm]

/-- A step that changes the mode completes, and is a key capture or the fetch of LD Vx, K. -/
theorem step_mode (h : step s = .next t) :
    t.mode = s.mode ∨ (t.result = .ok ∧
      (s.mode = .awaitKeyPress ∨ ∃ x, decodeWord s.fetchWord = .ok (.ldVxK x))) := by
  rcases step_next h with ⟨hm, rfl⟩ | ⟨_, _, rfl⟩ | ⟨_, _, u, hu, rfl⟩
  · exact .inr ⟨rfl, .inl hm⟩
  · exact .inl rfl
  · rcases dispatch_mode hu with hm | ⟨hok, hx⟩
    · exact .inl (by simp [hm])
    · exact .inr ⟨by simp [hok], .inr hx⟩

/-! ## Host operations -/

theorem loadProgram_mode {bytes : List Byte} {a : Nat} (h : loadProgram bytes a s = .next t) : t.mode = s.mode := by
  unfold loadProgram at h
  split at h
  · rw [← (raise_eq_next _ _ _ _ _).mp h]; rfl
  · rw [← (complete_eq_next _ _).mp h]; simp

/-- Settles O18: an execute phase and a step each change the mode only when they complete LD Vx, K or a key capture. -/
theorem modeChangesOnlyAtWaitAndCapture : Obligations.ModeChangesOnlyAtWaitAndCapture := by
  refine ⟨fun x s t h => ?wait, fun i s t h hne => ?exec, fun s t h hrun hne => ?step, fun s t w hm h => ?capture,
    fun s t r h hr => ?error, fun _ => rfl, fun _ _ _ _ => loadProgram_mode, fun _ _ _ _ => ⟨rfl, rfl, rfl⟩⟩
  case wait =>
    rw [← (complete_eq_next _ _).mp h]; rfl
  case exec =>
    exact ((exec_mode h).resolve_left hne).2
  case step =>
    obtain ⟨hok, hwait | hx⟩ := (step_mode h).resolve_left hne
    · simp [hrun] at hwait
    · exact ⟨hok, hx⟩
  case capture =>
    rw [step_of_awaitKeyPress hm, execute_of_awaitKeyPress w hm, or_self, complete_eq_next] at h
    exact h ▸ State.keyCapture_captures_or_waits hm
  case error =>
    rcases step_mode h with hm | ⟨hok, _⟩
    · exact hm
    · simp [hok] at hr

end Sys2Proof.Machine
end

section
/-! SUPPORT. The immediate operations LD Vx, kk and ADD Vx, kk (42_alu.md R191, R192): which words they are, and what a
completed write of one register leaves; then O28 and O29, which are assembled from these. -/

/-! ## The words of families 6 and 7 (30_encoding.md R104) -/

namespace Sys2Proof

/-- A word that meets the mask 0xF000 of a row is of that row's family. -/
theorem Word.opField_of_and_F000 {w : Word} {op : Nibble} (h : w &&& 0xF000#16 = wordA op 0) : w.opField = op := by
  rw [Word.and_F000] at h
  simpa using congrArg Word.opField h

theorem decodeWord_family6 {w : Word} (h : w.opField = 0x6#4) : decodeWord w = .ok (.ldVxKk w.xField w.kkField) := by
  simp [decodeWord, h]

theorem decodeWord_family7 {w : Word} (h : w.opField = 0x7#4) : decodeWord w = .ok (.addVxKk w.xField w.kkField) := by
  simp [decodeWord, h]

end Sys2Proof

namespace Sys2Proof.Machine

variable (s : State)

/-! ## A completed write of one register -/

theorem exec_ldVxKk (x : Nibble) (kk : Byte) : exec (.ldVxKk x kk) s = complete (s.setV x kk) := rfl

theorem exec_addVxKk (x : Nibble) (kk : Byte) : exec (.addVxKk x kk) s = complete (s.setV x (s.getV x + kk)) := rfl

/-- Every piece but the register file is outside a register write. -/
theorem State.setV_setResult_keepsAllBut (x : Nibble) (b : Byte) (r : StepResult) :
    KeepsAllBut [.registers] s ((s.setV x b).setResult r) := by
  intro p hp
  cases p
  case registers => simp at hp
  all_goals simp [Piece.same]

/-- Completing the write of `V[x]`: the result is Ok, `V[x]` holds the byte, every other register and piece is kept. -/
theorem complete_setV (x : Nibble) (b : Byte) :
    ∃ t, complete (s.setV x b) = .next t ∧ t.result = .ok ∧ t.getV x = b ∧
      (∀ j, j ≠ x → t.getV j = s.getV j) ∧ KeepsAllBut [.registers] s t :=
  ⟨(s.setV x b).setResult .ok, rfl, rfl, by simp, fun _ hj => by simp [State.getV_setV_ne s hj],
    s.setV_setResult_keepsAllBut x b .ok⟩

/-- Settles O28: family 6 is LD Vx, kk, whose execute phase completes the write of `kk` to `V[x]`. -/
theorem loadImmediateSetsRegister : Obligations.LoadImmediateSetsRegister := by
  refine ⟨fun w hw => decodeWord_family6 (Word.opField_of_and_F000 hw), fun x kk s => ?_⟩
  rw [exec_ldVxKk]
  exact complete_setV s x kk

/-- Settles O29: family 7 is ADD Vx, kk, whose execute phase completes the write of the 8-bit sum to `V[x]`, VF being no
exception among the other registers. -/
theorem addImmediateHasNoFlag : Obligations.AddImmediateHasNoFlag := by
  refine ⟨fun w hw => decodeWord_family7 (Word.opField_of_and_F000 hw), fun x kk s => ?_⟩
  rw [exec_addVxKk]
  obtain ⟨t, hnext, hok, hx, hothers, hframe⟩ := complete_setV s x (s.getV x + kk)
  have hsum : (t.getV x).toNat = ((s.getV x).toNat + kk.toNat) % 256 := by rw [hx, BitVec.toNat_add]
  exact ⟨t, hnext, hok, hsum, hothers, hframe⟩

end Sys2Proof.Machine
end

section
/-! SUPPORT. CLS (43_display.md R230): which word it is, and what its execute phase leaves; then O35, which is assembled
from these. -/

namespace Sys2Proof

/-- A row whose mask is 0xFFFF is met by its own word alone (30_encoding.md R104). -/
theorem Word.and_FFFF (w : Word) : w &&& 0xFFFF#16 = w := BitVec.and_allOnes

theorem decodeWord_00E0 : decodeWord 0x00E0#16 = .ok .cls := rfl

end Sys2Proof

namespace Sys2Proof.Machine

variable (s : State)

theorem exec_cls : exec .cls s = complete (s.setPix Display.clear) := rfl

/-- Every piece but the display is outside a write of the pixels. -/
theorem State.setPix_setResult_keepsAllBut (d : Display) (r : StepResult) :
    KeepsAllBut [.display] s ((s.setPix d).setResult r) := by
  intro p hp
  cases p
  case display => simp at hp
  all_goals simp [Piece.same]

/-- Settles O35: the mask leaves 0x00E0 alone, and CLS completes with the pixels of `Display.clear` as its only write. -/
theorem clearZeroesTheGrid : Obligations.ClearZeroesTheGrid := by
  refine ⟨fun w hw => ?word, fun s => ?effect⟩
  case word =>
    rw [Word.and_FFFF] at hw
    rw [hw, decodeWord_00E0]
  case effect =>
    exact ⟨_, exec_cls s, rfl, Display.get_clear, s.setPix_setResult_keepsAllBut Display.clear .ok⟩

end Sys2Proof.Machine
end

section
/-! SUPPORT. The timers (60_exceptions.md R313): what one decrement makes of a timer, and which pieces a write of the two
timers leaves; then O48, which is assembled from these. -/

namespace Sys2Proof.Machine

/-- One decrement takes 1 from a timer above zero and leaves zero at zero: no wrap to 255 (R313). -/
theorem tickDown_toNat (b : Byte) : (tickDown b).toNat = if b.toNat > 0 then b.toNat - 1 else 0 := by
  by_cases hb : b = 0
  · simp [tickDown, hb]
  · have hpos : b.toNat > 0 := by bv_omega
    rw [tickDown, if_neg hb, if_pos hpos]
    bv_omega

/-- Every piece but the two timers is outside a write of both. -/
theorem State.setDt_setSt_keepsAllBut (s : State) (d b : Byte) :
    KeepsAllBut [.delayTimer, .soundTimer] s ((s.setDt d).setSt b) := by
  intro p hp
  cases p
  case delayTimer | soundTimer => simp at hp
  all_goals simp [Piece.same]

/-- Settles O48: the host operation is `tickTimers` with no test of the mode, and `tickTimers` writes the two timers alone,
each with its one decrement. -/
theorem tickDecrementsBothTimers : Obligations.TickDecrementsBothTimers := fun s =>
  ⟨rfl, tickDown_toNat s.dt, tickDown_toNat s.st, s.setDt_setSt_keepsAllBut (tickDown s.dt) (tickDown s.st)⟩

end Sys2Proof.Machine
end

section
/-! SUPPORT. Encoder and decoder against each other and against the opcode table (30_encoding.md R101 to R110): O3 to O8. -/

namespace Sys2Proof

/-! ## The encoder's words decode to their instructions (R102, R104, R105) -/

/-- A family-0 word that is neither CLS's nor RET's is SYS (R105). -/
theorem decodeFamily0_wordA {nnn : Addr12} (hcls : nnn ≠ 0x0E0#12) (hret : nnn ≠ 0x0EE#12) :
    decodeFamily0 (wordA 0#4 nnn) = .sys nnn := by
  have ne_of_nnn (a : Addr12) (h : nnn ≠ a) : wordA 0#4 nnn ≠ wordA 0#4 a := fun e =>
    h (by simpa using congrArg Word.nnnField e)
  have h1 : wordA 0#4 nnn ≠ 0x00E0#16 := ne_of_nnn 0x0E0#12 hcls
  have h2 : wordA 0#4 nnn ≠ 0x00EE#16 := ne_of_nnn 0x0EE#12 hret
  rw [decodeFamily0, if_neg h1, if_neg h2, wordA_nnnField]

theorem decodeWord_encode {i : Instr} (hi : i.wellFormed = true) : decodeWord (encode i) = .ok i := by
  cases i
  case cls | ret => rfl
  case sys nnn =>
    have hne : nnn ≠ 0x0E0#12 ∧ nnn ≠ 0x0EE#12 := by simpa [Instr.wellFormed] using hi
    simp [encode, decodeWord, decodeFamily0_wordA hne.1 hne.2]
  all_goals simp [encode, decodeWord, decodeFamily8, decodeFamilyE, decodeFamilyF]

/-- The two bytes of a word that decodes, followed by any others, decode to its instruction and those others (R74). -/
theorem decodeBytes_bytesOfWord_append {w : Word} {i : Instr} (h : decodeWord w = .ok i) (rest : List Byte) :
    decodeBytes (bytesOfWord w ++ rest) = .ok (i, rest) := by
  simp [bytesOfWord, decodeBytes, wordOfBytes_bytesOfWord, h]

/-- Settles O5: `decodeWord` takes each constructor's word back, and the bytes of a word are read back as that word. -/
theorem decodeInvertsEncode : Obligations.DecodeInvertsEncode := fun _ hi =>
  ⟨decodeWord_encode hi, decodeBytes_bytesOfWord_append (decodeWord_encode hi)⟩

/-! ## A word is built from its own fields (R101) -/

variable {w : Word}

theorem wordA_of_opField {op : Nibble} (h : w.opField.toNat = op.toNat) : wordA op w.nnnField = w := by
  apply BitVec.eq_of_toNat_eq
  rw [wordA_toNat, ← h, Word.opField_toNat, Word.nnnField_toNat]
  omega

theorem wordXK_of_opField {op : Nibble} (h : w.opField.toNat = op.toNat) : wordXK op w.xField w.kkField = w := by
  apply BitVec.eq_of_toNat_eq
  rw [wordXK_toNat, ← h, Word.opField_toNat, Word.xField_toNat, Word.kkField_toNat]
  omega

theorem wordXK_of_opField_kkField {op : Nibble} {kk : Byte} (h : w.opField.toNat = op.toNat)
    (hkk : w.kkField.toNat = kk.toNat) : wordXK op w.xField kk = w :=
  BitVec.eq_of_toNat_eq hkk ▸ wordXK_of_opField h

theorem wordXYN_of_opField {op : Nibble} (h : w.opField.toNat = op.toNat) :
    wordXYN op w.xField w.yField w.nField = w := by
  apply BitVec.eq_of_toNat_eq
  rw [wordXYN_toNat, ← h, Word.opField_toNat, Word.xField_toNat, Word.yField_toNat, Word.nField_toNat]
  omega

theorem wordXYN_of_opField_nField {op n : Nibble} (h : w.opField.toNat = op.toNat)
    (hn : w.nField.toNat = n.toNat) : wordXYN op w.xField w.yField n = w :=
  BitVec.eq_of_toNat_eq hn ▸ wordXYN_of_opField h

/-! ## What the decoder answers for a word -/

/-- The decoder's answer `r` for `w` is right: an instruction is well formed and encoded as `w`, an error is one of R106
to R109. -/
def AnswersFor (w : Word) (r : Except DecodeError Instr) : Prop :=
  match r with
  | .ok i => encode i = w ∧ i.wellFormed = true
  | .error _ => Machine.UnsupportedWord w

theorem decodeFamily0_answersFor (h : w.opField.toNat = 0) : AnswersFor w (.ok (decodeFamily0 w)) := by
  have hw : wordA 0#4 w.nnnField = w := wordA_of_opField h
  unfold decodeFamily0
  split
  · exact ⟨‹w = _›.symm, rfl⟩
  · split
    · exact ⟨‹w = _›.symm, rfl⟩
    · rename_i hcls hret
      have hcls' : w.nnnField ≠ 0x0E0#12 := fun e => hcls (by rw [← hw, e]; rfl)
      have hret' : w.nnnField ≠ 0x0EE#12 := fun e => hret (by rw [← hw, e]; rfl)
      exact ⟨hw, by simp [Instr.wellFormed, hcls', hret']⟩

theorem decodeFamily8_answersFor (h : w.opField.toNat = 0x8) : AnswersFor w (decodeFamily8 w) := by
  unfold decodeFamily8
  split
  case h_10 =>
    refine .inr (.inl ⟨w.opField_toNat ▸ h, ?_⟩)
    simp only [imp_false, List.mem_cons, List.not_mem_nil, Word.nField_toNat] at *
    omega
  all_goals exact ⟨wordXYN_of_opField_nField h ‹_›, rfl⟩

theorem decodeFamilyE_answersFor (h : w.opField.toNat = 0xE) : AnswersFor w (decodeFamilyE w) := by
  unfold decodeFamilyE
  split
  case h_3 =>
    refine .inr (.inr (.inr (.inl ⟨w.opField_toNat ▸ h, ?_⟩)))
    simp_all [← Word.kkField_toNat]
  all_goals exact ⟨wordXK_of_opField_kkField h ‹_›, rfl⟩

theorem decodeFamilyF_answersFor (h : w.opField.toNat = 0xF) : AnswersFor w (decodeFamilyF w) := by
  unfold decodeFamilyF
  split
  case h_10 =>
    refine .inr (.inr (.inr (.inr ⟨w.opField_toNat ▸ h, ?_⟩)))
    simp_all [← Word.kkField_toNat]
  all_goals exact ⟨wordXK_of_opField_kkField h ‹_›, rfl⟩

theorem decodeWord_answersFor (w : Word) : AnswersFor w (decodeWord w) := by
  have unsupported_of_ne (hn : w.nField ≠ 0) : w.toNat % 16 ≠ 0 := fun e =>
    hn (BitVec.eq_of_toNat_eq (by rw [Word.nField_toNat, e]; rfl))
  unfold decodeWord
  split
  case h_1 => exact decodeFamily0_answersFor ‹_›
  case h_2 | h_3 | h_11 | h_12 => exact ⟨wordA_of_opField ‹_›, rfl⟩
  case h_4 | h_5 | h_7 | h_8 | h_13 => exact ⟨wordXK_of_opField ‹_›, rfl⟩
  case h_6 h =>
    split
    · exact ⟨wordXYN_of_opField_nField h (congrArg _ ‹_›), rfl⟩
    · exact .inl ⟨w.opField_toNat ▸ h, unsupported_of_ne ‹_›⟩
  case h_9 => exact decodeFamily8_answersFor ‹_›
  case h_10 h =>
    split
    · exact ⟨wordXYN_of_opField_nField h (congrArg _ ‹_›), rfl⟩
    · exact .inr (.inr (.inl ⟨w.opField_toNat ▸ h, unsupported_of_ne ‹_›⟩))
  case h_14 => exact ⟨wordXYN_of_opField ‹_›, rfl⟩
  case h_15 => exact decodeFamilyE_answersFor ‹_›
  case h_16 =>
    have hlt := w.opField.isLt
    simp only [imp_false] at *
    exact decodeFamilyF_answersFor (by omega)

/-- Settles O6: the decoder's answer for every word is right. -/
theorem decodedWordIsItsEncoding : Obligations.DecodedWordIsItsEncoding := fun w i h => by
  simpa only [AnswersFor, h] using decodeWord_answersFor w

/-- No instruction's word is unsupported (R104). -/
theorem not_unsupportedWord_encode (i : Instr) : ¬Machine.UnsupportedWord (encode i) := by
  cases i
  all_goals
    simp only [encode, Machine.UnsupportedWord, wordA_toNat, wordXK_toNat, wordXYN_toNat, BitVec.ofNat_eq_ofNat,
      BitVec.toNat_ofNat, List.mem_cons, List.not_mem_nil, or_false, not_or]
    omega

/-- Settles O8: an error answers an unsupported word; an unsupported word that decoded would be its instruction's. -/
theorem decoderRejectsExactlyUnsupportedWords : Obligations.DecoderRejectsExactlyUnsupportedWords := fun w => by
  have hw := decodeWord_answersFor w
  cases hd : decodeWord w with
  | ok i =>
    simp only [hd, AnswersFor] at hw
    simpa using hw.1 ▸ not_unsupportedWord_encode i
  | error e => simpa only [hd, AnswersFor, Except.error.injEq, exists_eq', true_iff] using hw

/-! ## The opcode table (R104) -/

/-- An instruction's word matches its own row. -/
theorem matchesRow_encode : ∀ i : Instr, matchesRow (encode i) i
  | .cls => Laws.MatchesRow.cls
  | .ret => Laws.MatchesRow.ret
  | .sys nnn => Laws.MatchesRow.sys nnn
  | .jpNnn nnn => Laws.MatchesRow.jpNnn nnn
  | .callNnn nnn => Laws.MatchesRow.callNnn nnn
  | .seVxKk x kk => Laws.MatchesRow.seVxKk x kk
  | .sneVxKk x kk => Laws.MatchesRow.sneVxKk x kk
  | .seVxVy x y => Laws.MatchesRow.seVxVy x y
  | .ldVxKk x kk => Laws.MatchesRow.ldVxKk x kk
  | .addVxKk x kk => Laws.MatchesRow.addVxKk x kk
  | .ldVxVy x y => Laws.MatchesRow.ldVxVy x y
  | .orVxVy x y => Laws.MatchesRow.orVxVy x y
  | .andVxVy x y => Laws.MatchesRow.andVxVy x y
  | .xorVxVy x y => Laws.MatchesRow.xorVxVy x y
  | .addVxVy x y => Laws.MatchesRow.addVxVy x y
  | .subVxVy x y => Laws.MatchesRow.subVxVy x y
  | .shrVx x y => Laws.MatchesRow.shrVx x y
  | .subnVxVy x y => Laws.MatchesRow.subnVxVy x y
  | .shlVx x y => Laws.MatchesRow.shlVx x y
  | .sneVxVy x y => Laws.MatchesRow.sneVxVy x y
  | .ldINnn nnn => Laws.MatchesRow.ldINnn nnn
  | .jpV0Nnn nnn => Laws.MatchesRow.jpV0Nnn nnn
  | .rndVxKk x kk => Laws.MatchesRow.rndVxKk x kk
  | .drwVxVyN x y n => Laws.MatchesRow.drwVxVyN x y n
  | .skpVx x => Laws.MatchesRow.skpVx x
  | .sknpVx x => Laws.MatchesRow.sknpVx x
  | .ldVxDt x => Laws.MatchesRow.ldVxDt x
  | .ldVxK x => Laws.MatchesRow.ldVxK x
  | .ldDtVx x => Laws.MatchesRow.ldDtVx x
  | .ldStVx x => Laws.MatchesRow.ldStVx x
  | .addIVx x => Laws.MatchesRow.addIVx x
  | .ldFVx x => Laws.MatchesRow.ldFVx x
  | .ldBVx x => Laws.MatchesRow.ldBVx x
  | .ldMemVx x => Laws.MatchesRow.ldMemVx x
  | .ldVxMem x => Laws.MatchesRow.ldVxMem x

/-- The 34 rows of the table but SYS's, as (mask, match). -/
def rowsButSys : List (Word × Word) :=
  [(0xFFFF, 0x00E0), (0xFFFF, 0x00EE)] ++
  [0x1000, 0x2000, 0x3000, 0x4000, 0x6000, 0x7000, 0xA000, 0xB000, 0xC000, 0xD000].map (0xF000, ·) ++
  [0x5000, 0x8000, 0x8001, 0x8002, 0x8003, 0x8004, 0x8005, 0x8006, 0x8007, 0x800E, 0x9000].map (0xF00F, ·) ++
  [0xE09E, 0xE0A1, 0xF007, 0xF00A, 0xF015, 0xF018, 0xF01E, 0xF029, 0xF033, 0xF055, 0xF065].map (0xF0FF, ·)

theorem tableRow_mem_rowsButSys (i : Instr) : (∃ nnn, i = .sys nnn) ∨ tableRow i ∈ rowsButSys := by
  cases i
  case sys nnn => exact .inl ⟨nnn, rfl⟩
  all_goals exact .inr (by simp [rowsButSys, tableRow])

/-- Two rows that one word meets agree on the bits that both masks fix. -/
theorem match_and_mask_of_matchesRow {i j : Instr} (hi : matchesRow w i) (hj : matchesRow w j) :
    (tableRow i).2 &&& (tableRow j).1 = (tableRow j).2 &&& (tableRow i).1 := by
  rw [← hi, ← hj, BitVec.and_assoc, BitVec.and_assoc, BitVec.and_comm (tableRow i).1]

/-- Any two of those rows differ in a bit that both masks fix. -/
theorem rowsButSys_pairwise : rowsButSys.Pairwise fun p q => p.2 &&& q.1 ≠ q.2 &&& p.1 := by
  decide +kernel

/-- At most one row but SYS's is met by a word. -/
theorem tableRow_eq_of_matchesRow {i j : Instr} (hi : matchesRow w i) (hj : matchesRow w j)
    (hi' : tableRow i ∈ rowsButSys) (hj' : tableRow j ∈ rowsButSys) : tableRow j = tableRow i := by
  have : Std.Symm fun p q : Word × Word => p.2 &&& q.1 ≠ q.2 &&& p.1 := ⟨fun _ _ => Ne.symm⟩
  by_contra hne
  exact rowsButSys_pairwise.forall hi' hj' (Ne.symm hne) (match_and_mask_of_matchesRow hi hj)

/-- Of the rows but SYS's, a word of family 0 meets only CLS's and RET's (R105). -/
theorem matchesRow_family0 {nnn : Addr12} {j : Instr} (hsys : matchesRow w (.sys nnn)) (hj : matchesRow w j) :
    (∃ nnn, j = .sys nnn) ∨ j = .cls ∨ j = .ret := by
  have hfamily := match_and_mask_of_matchesRow hsys hj
  cases j
  case sys nnn => exact .inl ⟨nnn, rfl⟩
  case cls => exact .inr (.inl rfl)
  case ret => exact .inr (.inr rfl)
  all_goals exact absurd hfamily (by simp only [tableRow]; decide)

theorem decodeWord_of_matchesRow_cls (h : matchesRow w .cls) : decodeWord w = .ok .cls :=
  (w.and_FFFF.symm.trans h : w = 0x00E0#16) ▸ rfl

theorem decodeWord_of_matchesRow_ret (h : matchesRow w .ret) : decodeWord w = .ok .ret :=
  (w.and_FFFF.symm.trans h : w = 0x00EE#16) ▸ rfl

/-- Settles O7: the word is its instruction's, which meets its own row; two rows but SYS's exclude each other, and a word
that decodes to SYS is not the one word of CLS or of RET. -/
theorem decodeSelectsTheMatchingRow : Obligations.DecodeSelectsTheMatchingRow := by
  intro w i hdec
  have hi : matchesRow w i := (decodedWordIsItsEncoding w i hdec).1 ▸ matchesRow_encode i
  refine ⟨hi, fun j hj => ?_⟩
  rcases tableRow_mem_rowsButSys i with ⟨nnn, rfl⟩ | hi'
  · rcases matchesRow_family0 hi hj with hsys | rfl | rfl
    · exact .inr hsys
    · exact absurd (decodeWord_of_matchesRow_cls hj ▸ hdec) (by simp)
    · exact absurd (decodeWord_of_matchesRow_ret hj ▸ hdec) (by simp)
  · rcases tableRow_mem_rowsButSys j with hsys | hj'
    · exact .inr hsys
    · exact .inl (tableRow_eq_of_matchesRow hi hj hi' hj')

/-! ## Fields and sample words -/

/-- Settles O3: each field is the quotient and remainder its bit range stands for. -/
theorem wordFieldsAreTheBitRanges : Obligations.WordFieldsAreTheBitRanges := fun w => by
  have hx : w.xField = ((w >>> 8) &&& 0xF#16).setWidth 4 := by
    apply BitVec.eq_of_toNat_eq
    have hmask := Nat.and_two_pow_sub_one_eq_mod (w.toNat / 256 % 16) 4
    simpa [Word.xField_toNat, Nat.shiftRight_eq_div_pow] using hmask.symm
  exact ⟨w.opField_toNat, w.xField_toNat, w.yField_toNat, w.nField_toNat, w.kkField_toNat, w.nnnField_toNat, hx⟩

/-- Settles O4: each word is decoded by evaluation. -/
theorem sampleWordsDecode : Obligations.SampleWordsDecode := ⟨rfl, rfl, rfl, rfl, rfl, rfl, rfl, rfl, rfl, rfl⟩

end Sys2Proof
end

section
/-! SUPPORT. Which pieces an execute phase writes (10_state.md R30): one frame lemma per update of the state, then one for
all instructions; O19 and O20, the only writers of each piece and of VF. -/

namespace Sys2Proof.Machine

variable {s t : State} {l : List Piece}

/-! ## Frames -/

theorem keepsAllBut_of_mem_or_same (h : ∀ p : Piece, p ∈ l ∨ p.same s t) : KeepsAllBut l s t :=
  fun p hp => (h p).resolve_left hp

theorem keepsAllBut_self (l : List Piece) (s : State) : KeepsAllBut l s s :=
  keepsAllBut_of_mem_or_same fun p => by cases p <;> simp [Piece.same]

/-- The result is no piece, so writing it is outside every frame. -/
theorem KeepsAllBut.setResult (h : KeepsAllBut l s t) (r : StepResult) : KeepsAllBut l s (t.setResult r) := by
  intro p hp
  have hsame := h p hp
  cases p <;> exact hsame

theorem KeepsAllBut.reportAt (h : KeepsAllBut l s t) (pc0 : Word) : KeepsAllBut l s (t.reportAt pc0) := by
  obtain ⟨r, hr⟩ := t.reportAt_eq pc0
  exact hr ▸ h.setResult r

variable (s)

theorem State.setV_keepsAllBut (x : Nibble) (b : Byte) : KeepsAllBut [.registers] s (s.setV x b) :=
  s.setV_setResult_keepsAllBut x b s.result

theorem State.setPix_keepsAllBut (d : Display) : KeepsAllBut [.display] s (s.setPix d) :=
  s.setPix_setResult_keepsAllBut d s.result

theorem State.setVWithFlag_keepsAllBut (x : Nibble) (b : Byte) (f : Bool) :
    KeepsAllBut [.registers] s (s.setVWithFlag x b f) :=
  keepsAllBut_of_mem_or_same fun p => by cases p <;> simp [Piece.same]

theorem State.setRegs_keepsAllBut (regs : Vector Byte 16) : KeepsAllBut [.registers] s (s.setRegs regs) :=
  keepsAllBut_of_mem_or_same fun p => by cases p <;> simp [Piece.same]

theorem State.setPc_keepsAllBut (w : Word) : KeepsAllBut [.pc] s (s.setPc w) :=
  keepsAllBut_of_mem_or_same fun p => by cases p <;> simp [Piece.same]

theorem State.skipIf_keepsAllBut (c : Bool) : KeepsAllBut [.pc] s (s.skipIf c) :=
  s.skipIf_eq c ▸ s.setPc_keepsAllBut _

theorem State.setStack_setPc_keepsAllBut (slots : List Word) (depth : Nat) (w : Word) :
    KeepsAllBut [.pc, .stack] s ((s.setStack slots depth).setPc w) :=
  keepsAllBut_of_mem_or_same fun p => by cases p <;> simp [Piece.same]

theorem State.setI_keepsAllBut (w : Word) : KeepsAllBut [.index] s (s.setI w) :=
  keepsAllBut_of_mem_or_same fun p => by cases p <;> simp [Piece.same]

theorem State.setDt_keepsAllBut (b : Byte) : KeepsAllBut [.delayTimer] s (s.setDt b) :=
  keepsAllBut_of_mem_or_same fun p => by cases p <;> simp [Piece.same]

theorem State.setSt_keepsAllBut (b : Byte) : KeepsAllBut [.soundTimer] s (s.setSt b) :=
  keepsAllBut_of_mem_or_same fun p => by cases p <;> simp [Piece.same]

theorem State.setKeys_keepsAllBut (w : Word) : KeepsAllBut [.keys] s (s.setKeys w) :=
  keepsAllBut_of_mem_or_same fun p => by cases p <;> simp [Piece.same]

theorem State.setWait_keepsAllBut (m : Mode) (x : Nibble) (k : Word) : KeepsAllBut [.keyWait] s (s.setWait m x k) :=
  keepsAllBut_of_mem_or_same fun p => by cases p <;> simp [Piece.same]

theorem State.countDraw_setV_keepsAllBut (x : Nibble) (b : Byte) :
    KeepsAllBut [.registers, .draws] s (s.countDraw.setV x b) :=
  keepsAllBut_of_mem_or_same fun p => by cases p <;> simp [Piece.same]

theorem State.setPix_setV_keepsAllBut (d : Display) (x : Nibble) (b : Byte) :
    KeepsAllBut [.registers, .display] s ((s.setPix d).setV x b) :=
  keepsAllBut_of_mem_or_same fun p => by cases p <;> simp [Piece.same]

theorem State.writeBytes_keepsAllBut (a : Nat) (xs : List Byte) : KeepsAllBut [.memory] s (s.writeBytes a xs) :=
  keepsAllBut_of_mem_or_same fun p => by cases p <;> simp [Piece.same]

/-! ## The pieces an instruction writes -/

/-- R30's "owner of writes" column, read by instruction. -/
def piecesWritten : Instr → List Piece
  | .cls => [.display]
  | .ret | .callNnn _ => [.pc, .stack]
  | .sys _ => []
  | .jpNnn _ | .jpV0Nnn _ | .seVxKk _ _ | .sneVxKk _ _ | .seVxVy _ _ | .sneVxVy _ _ | .skpVx _ | .sknpVx _ => [.pc]
  | .ldVxKk _ _ | .addVxKk _ _ | .ldVxVy _ _ | .orVxVy _ _ | .andVxVy _ _ | .xorVxVy _ _ | .addVxVy _ _
  | .subVxVy _ _ | .shrVx _ _ | .subnVxVy _ _ | .shlVx _ _ | .ldVxDt _ | .ldVxMem _ => [.registers]
  | .rndVxKk _ _ => [.registers, .draws]
  | .drwVxVyN _ _ _ => [.registers, .display]
  | .ldINnn _ | .addIVx _ | .ldFVx _ => [.index]
  | .ldDtVx _ => [.delayTimer]
  | .ldStVx _ => [.soundTimer]
  | .ldVxK _ => [.keyWait]
  | .ldBVx _ | .ldMemVx _ => [.memory]

theorem okEffect_keepsAllBut (i : Instr) : KeepsAllBut (piecesWritten i) s (okEffect s i) := by
  cases i
  case cls => exact s.setPix_keepsAllBut _
  case ret | callNnn => exact s.setStack_setPc_keepsAllBut _ _ _
  case sys => exact keepsAllBut_self _ s
  case jpNnn | jpV0Nnn => exact s.setPc_keepsAllBut _
  case seVxKk | sneVxKk | seVxVy | sneVxVy | skpVx | sknpVx => exact s.skipIf_keepsAllBut _
  case ldVxKk | addVxKk | ldVxVy | orVxVy | andVxVy | xorVxVy | ldVxDt => exact s.setV_keepsAllBut _ _
  case addVxVy | subVxVy | shrVx | subnVxVy | shlVx => exact s.setVWithFlag_keepsAllBut _ _ _
  case ldVxMem => exact s.setRegs_keepsAllBut _
  case rndVxKk => exact s.countDraw_setV_keepsAllBut _ _
  case drwVxVyN => exact s.setPix_setV_keepsAllBut _ _ _
  case ldINnn | addIVx | ldFVx => exact s.setI_keepsAllBut _
  case ldDtVx => exact s.setDt_keepsAllBut _
  case ldStVx => exact s.setSt_keepsAllBut _
  case ldVxK => exact s.setWait_keepsAllBut _ _ _
  case ldBVx | ldMemVx => exact s.writeBytes_keepsAllBut _ _

variable {s}

/-- The frame of an instruction that completes, up to the result it hands to the host. -/
theorem okEffect_setResult_keepsAllBut (s : State) (i : Instr) (r : StepResult) :
    KeepsAllBut (piecesWritten i) s ((okEffect s i).setResult r) := (okEffect_keepsAllBut s i).setResult r

theorem exec_keepsAllBut {i : Instr} (h : exec i s = .next t) : KeepsAllBut (piecesWritten i) s t := by
  rcases exec_next h with ⟨_, _, _, rfl⟩ | ⟨_, rfl⟩
  · exact (keepsAllBut_self _ s).setResult _
  · exact okEffect_setResult_keepsAllBut s i _

theorem mem_piecesWritten_of_not_same {i : Instr} {p : Piece} (h : exec i s = .next t) (hp : ¬p.same s t) :
    p ∈ piecesWritten i := by
  by_contra hmem
  exact hp (exec_keepsAllBut h p hmem)

/-! ## A step writes neither the keyboard nor the parameters (R38, R7) -/

theorem keyCapture_keepsAllBut (s : State) : KeepsAllBut [.registers, .keyWait] s s.keyCapture := by
  rcases s.keyCapture_cases with ⟨b, hb⟩ | ⟨k, hk⟩
  · rw [hb]
    exact keepsAllBut_of_mem_or_same fun p => by cases p <;> simp [Piece.same, State.capture]
  · rw [hk]
    exact keepsAllBut_of_mem_or_same fun p => by cases p <;> simp [Piece.same]

theorem keys_parameters_not_mem_piecesWritten (i : Instr) :
    Piece.keys ∉ piecesWritten i ∧ Piece.parameters ∉ piecesWritten i := by
  cases i <;> simp [piecesWritten]

theorem exec_keys_cfg {i : Instr} (h : exec i s = .next t) : t.keys = s.keys ∧ t.cfg = s.cfg :=
  ⟨exec_keepsAllBut h .keys (keys_parameters_not_mem_piecesWritten i).1,
    exec_keepsAllBut h .parameters (keys_parameters_not_mem_piecesWritten i).2⟩

theorem dispatch_keys_cfg {w : Word} (h : dispatch w s = .next t) : t.keys = s.keys ∧ t.cfg = s.cfg := by
  rcases dispatch_next h with ⟨i, _, he⟩ | ⟨_, _, rfl⟩
  · exact exec_keys_cfg he
  · exact ⟨rfl, rfl⟩

theorem step_keys_cfg (h : step s = .next t) : t.keys = s.keys ∧ t.cfg = s.cfg := by
  rcases step_next h with ⟨_, rfl⟩ | ⟨_, _, rfl⟩ | ⟨_, _, u, hu, rfl⟩
  · have hframe := keyCapture_keepsAllBut s
    exact ⟨hframe .keys (by simp), hframe .parameters (by simp)⟩
  · exact ⟨rfl, rfl⟩
  · simpa using dispatch_keys_cfg hu

/-! ## The writers of each piece -/

/-- Settles O19: a piece that changed is one the instruction writes, and the instructions that write it are read off
`piecesWritten`. -/
theorem eachPieceHasItsOnlyWriters : Obligations.EachPieceHasItsOnlyWriters := by
  refine ⟨fun i s t h => ?exec, fun s t h => step_keys_cfg h⟩
  have writes_of {p : Piece} (hp : ¬p.same s t) : p ∈ piecesWritten i := mem_piecesWritten_of_not_same h hp
  obtain ⟨hkeys, hcfg⟩ := exec_keys_cfg h
  clear h
  refine ⟨?memory, ?registers, ?display, ?index, ?stack, ?delayTimer, ?soundTimer, ?keyWait,
    ?draws, ?pc, hkeys, hcfg⟩
  all_goals
    intro hp
    have hmem := writes_of hp
    cases i <;> simp [piecesWritten] at hmem ⊢

/-! ## The writers of VF (R32, R347) -/

theorem eq_of_getV_setV_ne {x j : Nibble} {b : Byte} (h : (s.setV x b).getV j ≠ s.getV j) : x = j := by
  by_contra hne
  exact h (s.getV_setV_ne (Ne.symm hne) b)

/-- The block load reaches VF only as a load of all sixteen registers (R271). -/
theorem eq_regF_of_setRegs_loadBlock_ne {x : Nibble} (h : (s.setRegs (s.loadBlock x)).getV 0xF#4 ≠ s.getV 0xF#4) :
    x = 0xF#4 := by
  rw [State.getV_setRegs, State.loadBlock_get] at h
  have hle : (0xF#4).toNat ≤ x.toNat := by
    by_contra hlt
    exact h (if_neg hlt)
  have hx := x.isLt
  exact BitVec.eq_of_toNat_eq (Nat.le_antisymm (Nat.le_of_lt_succ hx) hle)

/-- Settles O20: an instruction that changes VF writes registers; without a flag or the block load it writes one register,
which then is VF. -/
theorem flagRegisterHasItsOnlyWriters : Obligations.FlagRegisterHasItsOnlyWriters := by
  intro i s t h hne
  have hmem : Piece.registers ∈ piecesWritten i := mem_piecesWritten_of_not_same h fun hsame => hne (hsame 0xF#4)
  have hok : ((okEffect s i).setResult .ok).getV 0xF#4 ≠ s.getV 0xF#4 := by
    rcases exec_next h with ⟨_, _, _, rfl⟩ | ⟨_, rfl⟩
    · exact absurd rfl hne
    · exact hne
  rw [State.getV_setResult] at hok
  clear h hne
  cases i
  case addVxVy | subVxVy | subnVxVy | shrVx | shlVx | drwVxVyN => simp
  case ldVxKk | addVxKk | rndVxKk | ldVxVy | orVxVy | andVxVy | xorVxVy | ldVxDt => simp [eq_of_getV_setV_ne hok]
  case ldVxMem => simp [eq_regF_of_setRegs_loadBlock_ne hok]
  all_goals simp [piecesWritten] at hmem

end Sys2Proof.Machine
end

section
/-! SUPPORT. The invariant (10_state.md R35, 20_memory.md R70, 00_scope.md R7) over execute phases, steps and host
operations: O2, O14 and O15; and that each of them answers a next state (R141): O13. -/

namespace Sys2Proof.Machine

variable {s t : State}

/-! ## What keeps the invariant -/

/-- The invariant speaks of memory, stack, depth and parameters alone. -/
theorem State.Inv.congr (h : s.Inv) (hmem : t.mem = s.mem) (hstack : t.stack = s.stack) (hsp : t.sp = s.sp)
    (hcfg : t.cfg = s.cfg) : t.Inv where
  memoryWf := by rw [hmem, hcfg]; exact h.memoryWf
  stackLength := by rw [hstack, hcfg]; exact h.stackLength
  depthInRange := by rw [hsp, hcfg]; exact h.depthInRange
  admissible := by rw [hcfg]; exact h.admissible

theorem State.Inv.setResult (h : s.Inv) (r : StepResult) : (s.setResult r).Inv := h.congr rfl rfl rfl rfl

theorem State.Inv.setPc (h : s.Inv) (w : Word) : (s.setPc w).Inv := h.congr rfl rfl rfl rfl

theorem State.Inv.reportAt (h : s.Inv) (pc0 : Word) : (s.reportAt pc0).Inv :=
  h.congr (by simp) (by simp) (by simp) (by simp)

theorem State.Inv.writeBytes (h : s.Inv) (a : Nat) (xs : List Byte) : (s.writeBytes a xs).Inv where
  memoryWf := State.writeBytes_memWf h.memoryWf a xs
  stackLength := by simpa using h.stackLength
  depthInRange := by simpa using h.depthInRange
  admissible := by simpa using h.admissible

/-- A push below capacity (R161). -/
theorem State.Inv.pushReturn (h : s.Inv) (hroom : s.sp < s.cfg.stackDepth) (w : Word) : (s.pushReturn w).Inv where
  memoryWf := h.memoryWf
  stackLength := by simpa [State.pushReturn] using h.stackLength
  depthInRange := hroom
  admissible := h.admissible

theorem State.Inv.popReturn (h : s.Inv) : s.popReturn.Inv where
  memoryWf := h.memoryWf
  stackLength := h.stackLength
  depthInRange := (Nat.sub_le _ _).trans h.depthInRange
  admissible := h.admissible

/-- R340: the reset state meets the invariant under admissible parameters. -/
theorem State.resetWith_inv {c : Config} (hc : c.Admissible) : (State.resetWith c).Inv where
  memoryWf := Memory.nil_wf _
  stackLength := List.length_replicate
  depthInRange := Nat.zero_le _
  admissible := hc

/-- Settles O2: the default stack depth is 16. -/
theorem resetMeetsTheInvariant : Obligations.ResetMeetsTheInvariant :=
  ⟨fun _ hc => State.resetWith_inv hc, State.resetWith_inv (c := Config.default) (by decide)⟩

/-! ## Execute phase, dispatch, step -/

/-- An instruction that raises nothing keeps the invariant; for CALL this is its capacity test. -/
theorem okEffect_inv {i : Instr} (h : s.Inv) (hok : errorOf s i = none) : (okEffect s i).Inv := by
  cases i
  case callNnn nnn =>
    have hroom : s.sp < s.cfg.stackDepth := by simpa [errorOf] using hok
    exact (h.pushReturn hroom s.pc).setPc _
  case ret => exact h.popReturn.setPc _
  case ldBVx | ldMemVx => exact h.writeBytes _ _
  all_goals exact h.congr (by simp [okEffect]) (by simp [okEffect]) (by simp [okEffect]) (by simp [okEffect])

theorem exec_inv {i : Instr} (h : s.Inv) (he : exec i s = .next t) : t.Inv := by
  rcases exec_next he with ⟨_, _, _, rfl⟩ | ⟨hok, rfl⟩
  · exact h.setResult _
  · exact (okEffect_inv h hok).setResult _

theorem dispatch_inv {w : Word} (h : s.Inv) (hd : dispatch w s = .next t) : t.Inv := by
  rcases dispatch_next hd with ⟨_, _, he⟩ | ⟨_, _, rfl⟩
  · exact exec_inv h he
  · exact h.setResult _

theorem State.Inv.keyCapture (h : s.Inv) : s.keyCapture.Inv := by
  rcases s.keyCapture_cases with ⟨b, hb⟩ | ⟨k, hk⟩
  · exact hb ▸ h.congr rfl rfl rfl rfl
  · exact hk ▸ h.congr rfl rfl rfl rfl

theorem step_inv (h : s.Inv) (hs : step s = .next t) : t.Inv := by
  rcases step_next hs with ⟨_, rfl⟩ | ⟨_, _, rfl⟩ | ⟨_, _, _, hd, rfl⟩
  · exact h.keyCapture.setResult _
  · exact h.setResult _
  · exact (dispatch_inv (h.setPc _) hd).reportAt _

/-- Settles O14: a key capture, a fetch error and a dispatch each keep the invariant. -/
theorem stepKeepsTheInvariant : Obligations.StepKeepsTheInvariant := fun _ _ => step_inv

/-! ## Host operations and schedules -/

theorem execute_inv {w : Word} (h : s.Inv) (he : execute w s = .next t) : t.Inv := by
  unfold execute at he
  split at he
  · exact (complete_eq_next _ _).mp he ▸ h.keyCapture.setResult _
  · exact dispatch_inv h he

/-- Everything `loadProgram` can do (R318): the range error, or the store of the whole image. -/
theorem loadProgram_next {bytes : List Byte} {a : Nat} (h : loadProgram bytes a s = .next t) :
    (∃ b, t = s.setResult (.error ⟨.outOfBoundsAccess, none, s.pc, some b⟩)) ∨
    t = (s.writeBytes a bytes).setResult .ok := by
  unfold loadProgram at h
  split at h
  · exact .inl ⟨_, ((raise_eq_next _ _ _ _ _).mp h).symm⟩
  · exact .inr ((complete_eq_next _ _).mp h).symm

theorem loadProgram_inv {bytes : List Byte} {a : Nat} (h : s.Inv) (hl : loadProgram bytes a s = .next t) : t.Inv := by
  rcases loadProgram_next hl with ⟨_, rfl⟩ | rfl
  · exact h.setResult _
  · exact (h.writeBytes a bytes).setResult _

theorem hostStep_inv {op : HostOp} (h : s.Inv) (hop : hostStep op s = .next t) : t.Inv := by
  cases op
  case loadProgram => exact loadProgram_inv h hop
  case cycle => exact step_inv h hop
  case execute => exact execute_inv h hop
  case reset =>
    cases hop
    exact (State.resetWith_inv h.admissible).congr rfl rfl rfl rfl
  case setKeyState | tickTimers | setPc =>
    cases hop
    exact h.congr rfl rfl rfl rfl

/-- Settles O15, by induction on the schedule. -/
theorem hostScheduleKeepsTheInvariant : Obligations.HostScheduleKeepsTheInvariant := by
  intro ops
  induction ops with
  | nil =>
    intro s t h hrun
    cases hrun
    exact h
  | cons op ops ih =>
    intro s t h hrun
    unfold runHost at hrun
    split at hrun
    · exact ih _ t (hostStep_inv h ‹_›) hrun
    · cases hrun
    · cases hrun

/-! ## Every operation answers a next state (R141) -/

theorem exec_answers (i : Instr) (s : State) : ∃ t, exec i s = .next t := by
  rw [exec_inversion]
  split
  · exact ⟨_, rfl⟩
  · exact ⟨_, rfl⟩

theorem dispatch_answers (w : Word) (s : State) : ∃ t, dispatch w s = .next t := by
  unfold dispatch
  split
  · exact exec_answers _ s
  · exact ⟨_, rfl⟩

theorem step_answers (s : State) : ∃ t, step s = .next t := by
  unfold step cycle
  split
  · exact ⟨_, rfl⟩
  · split
    · exact ⟨_, rfl⟩
    · obtain ⟨u, hu⟩ := dispatch_answers s.fetchWord (s.setPc (s.pc + 2))
      exact ⟨u.reportAt s.pc, (mapNext_eq_next _ _ _).mpr ⟨u, hu, rfl⟩⟩

theorem execute_answers (w : Word) (s : State) : ∃ t, execute w s = .next t := by
  unfold execute
  split
  · exact ⟨_, rfl⟩
  · exact dispatch_answers w s

theorem loadProgram_answers (bytes : List Byte) (a : Nat) (s : State) : ∃ t, loadProgram bytes a s = .next t := by
  unfold loadProgram
  split
  · exact ⟨_, rfl⟩
  · exact ⟨_, rfl⟩

theorem hostStep_answers (op : HostOp) (s : State) : ∃ t, hostStep op s = .next t := by
  cases op
  case loadProgram bytes a => exact loadProgram_answers bytes a s
  case cycle => exact step_answers s
  case execute w => exact execute_answers w s
  case reset | setKeyState | tickTimers | setPc => exact ⟨_, rfl⟩

/-- Settles O13: an error is a next state as well. -/
theorem everyOperationAnswersANextState : Obligations.EveryOperationAnswersANextState :=
  ⟨step_answers, execute_answers, exec_answers, hostStep_answers⟩

end Sys2Proof.Machine
end

section
/-! SUPPORT. Errors (60_exceptions.md R300 to R309): which an execute phase raises and what one changes, O16 and O17; then
how a step fetches and dispatches (40_fetch_dispatch.md R131 to R136), O9 to O12. -/

namespace Sys2Proof.Machine

variable {s t : State}

/-! ## What raises and what completes -/

/-- An instruction with no error in `s` completes with its effect. -/
theorem exec_of_errorOf_none {i : Instr} (h : errorOf s i = none) :
    exec i s = .next ((okEffect s i).setResult .ok) := by
  rw [exec_inversion, h]
  rfl

/-- An instruction with an error in `s` takes it and changes nothing (R304, R305). -/
theorem raisesError_of_errorOf_some {i : Instr} {kind : ErrorKind} {addr : Option Nat}
    (h : errorOf s i = some (kind, addr)) : RaisesError i kind addr s := by
  refine ⟨s.setResult (.error ⟨kind, some (encode i), s.pc, addr⟩), ?_, rfl, (keepsAllBut_self [] s).setResult _⟩
  rw [exec_inversion, h]
  rfl

/-- An execute phase that answers Ok had no error, and left its effect. -/
theorem exec_ok {i : Instr} (h : exec i s = .next t) (hok : t.result = .ok) :
    errorOf s i = none ∧ t = (okEffect s i).setResult .ok := by
  rcases exec_next h with ⟨_, _, _, rfl⟩ | hnext
  · exact nomatch hok
  · exact hnext

/-- An execute phase that answers an error raised `errorOf`, and left the state as it was. -/
theorem exec_error {i : Instr} {r : ErrorReport} (h : exec i s = .next t) (hr : t.result = .error r) :
    errorOf s i = some (r.kind, r.addr) ∧ r.opcode = some (encode i) ∧ r.pc = s.pc ∧ t = s.setResult (.error r) := by
  rcases exec_next h with ⟨kind, addr, he, rfl⟩ | ⟨_, rfl⟩
  · cases hr
    exact ⟨he, rfl, rfl, rfl⟩
  · exact nomatch hr

/-- An error names an address exactly when it is OutOfBoundsAccess (R305). -/
theorem errorOf_addr {i : Instr} {kind : ErrorKind} {addr : Option Nat} (h : errorOf s i = some (kind, addr)) :
    addr = none ↔ kind ≠ .outOfBoundsAccess := by
  cases i
  case sys =>
    cases h
    simp
  case callNnn | ret | skpVx | sknpVx | drwVxVyN | ldBVx | ldMemVx | ldVxMem =>
    simp only [errorOf, Option.ite_none_left_eq_some, Option.ite_none_right_eq_some, Option.some.injEq,
      Prod.mk.injEq] at h
    obtain ⟨-, rfl, rfl⟩ := h
    simp
  all_goals exact nomatch h

/-! ## Precise errors (D5) -/

/-- A dispatch that raises leaves the state as it was and reports its word and `pc`. -/
theorem dispatch_error {w : Word} {r : ErrorReport} (h : dispatch w s = .next t) (hr : t.result = .error r) :
    r.opcode = some w ∧ t = s.setResult (.error r) := by
  rcases dispatch_next h with ⟨i, hi, he⟩ | ⟨_, _, rfl⟩
  · obtain ⟨_, hop, _, rfl⟩ := exec_error he hr
    exact ⟨(decodedWordIsItsEncoding w i hi).1 ▸ hop, rfl⟩
  · cases hr
    exact ⟨rfl, rfl⟩

/-- A report under `reportAt` is the report that was there, with its `pc` moved. -/
theorem State.reportAt_error {r : ErrorReport} {pc0 : Word} (h : (s.reportAt pc0).result = .error r) :
    ∃ r', s.result = .error r' ∧ r = { r' with pc := pc0 } := by
  cases hres : s.result with
  | ok => simp [hres] at h
  | error r' =>
    rw [State.reportAt_of_error hres] at h
    cases h
    exact ⟨r', rfl, rfl⟩

/-- Settles O16: an execute phase raises with the state untouched; a step raises at the fetch, or in a dispatch after the
fetch advance. -/
theorem errorsArePrecise : Obligations.ErrorsArePrecise := by
  refine ⟨fun i s t r h hr => ?exec, fun s t r h hr => ?step⟩
  case exec =>
    obtain ⟨he, hop, hpc, rfl⟩ := exec_error h hr
    exact ⟨(keepsAllBut_self [] s).setResult _, hop, hpc, errorOf_addr he⟩
  case step =>
    rcases step_next h with ⟨_, rfl⟩ | ⟨hrun, _, rfl⟩ | ⟨hrun, _, u, hu, rfl⟩
    · exact nomatch hr
    · cases hr
      exact ⟨(keepsAllBut_self _ s).setResult _, hrun, rfl, .inl ⟨rfl, rfl⟩⟩
    · obtain ⟨r', hr', rfl⟩ := State.reportAt_error hr
      obtain ⟨hop, rfl⟩ := dispatch_error hu hr'
      exact ⟨((s.setPc_keepsAllBut _).setResult _).reportAt _, hrun, rfl, .inr ⟨hop, by simp⟩⟩

/-- Settles O17: the cases of `errorOf`. -/
theorem errorsAriseOnlyInTheStatedCases : Obligations.ErrorsAriseOnlyInTheStatedCases := by
  intro i s t r h hr
  obtain ⟨he, -, -, -⟩ := exec_error h hr
  obtain ⟨kind, opcode, pc, addr⟩ := r
  clear h hr
  cases i <;> simp only [errorOf] at he
  case sys nnn =>
    cases he
    exact .inl ⟨rfl, nnn, rfl⟩
  case callNnn nnn =>
    split_ifs at he with hfull
    cases he
    exact .inr (.inl ⟨rfl, hfull, nnn, rfl⟩)
  case ret =>
    split_ifs at he with hempty
    cases he
    exact .inr (.inr (.inl ⟨rfl, hempty, rfl⟩))
  case drwVxVyN x y n =>
    split_ifs at he with hfits
    cases he
    have hn : n ≠ 0 := fun e => hfits (.inl (by simp [e]))
    exact .inr (.inr (.inr ⟨rfl, .inl ⟨x, y, n, rfl, hn, by omega, rfl⟩⟩))
  case ldBVx x =>
    split_ifs at he with hfits
    cases he
    exact .inr (.inr (.inr ⟨rfl, .inr (.inl ⟨x, rfl, by omega, rfl⟩)⟩))
  case ldMemVx x =>
    split_ifs at he with hfits
    cases he
    exact .inr (.inr (.inr ⟨rfl, .inr (.inr (.inl ⟨x, .inl rfl, by omega, rfl⟩))⟩))
  case ldVxMem x =>
    split_ifs at he with hfits
    cases he
    exact .inr (.inr (.inr ⟨rfl, .inr (.inr (.inl ⟨x, .inr rfl, by omega, rfl⟩))⟩))
  case skpVx x =>
    split_ifs at he with hbig
    cases he
    exact .inr (.inr (.inr ⟨rfl, .inr (.inr (.inr ⟨x, .inl rfl, hbig, rfl⟩))⟩))
  case sknpVx x =>
    split_ifs at he with hbig
    cases he
    exact .inr (.inr (.inr ⟨rfl, .inr (.inr (.inr ⟨x, .inr rfl, hbig, rfl⟩))⟩))
  all_goals exact nomatch he

/-! ## Fetch and dispatch (R131, R132, R134, R135) -/

theorem step_of_running (hm : s.mode = .running) (hpc : s.pc.toNat ≤ 4094) : step s = fetchAndDispatch s := by
  simp [step, cycle, hm, Nat.not_lt.mpr hpc]

theorem step_of_pc_gt (hm : s.mode = .running) (hpc : 4094 < s.pc.toNat) : step s = raiseFetch s := by
  simp [step, cycle, hm, hpc]

theorem execute_of_running (w : Word) (hm : s.mode = .running) : execute w s = dispatch w s := by
  simp [execute, hm]

theorem dispatch_of_decodeWord {w : Word} {i : Instr} (h : decodeWord w = .ok i) (s : State) :
    dispatch w s = exec i s := by
  simp [dispatch, h]

theorem dispatch_of_unsupportedWord {w : Word} (h : UnsupportedWord w) (s : State) :
    dispatch w s = raise .unsupportedOpcode (some w) none s := by
  obtain ⟨e, he⟩ := (decoderRejectsExactlyUnsupportedWords w).mpr h
  simp [dispatch, he]

/-- The bytes at `pc` decode to what the fetched word decodes to (R74). -/
theorem decodeWord_fetchWord {i : Instr}
    (h : decodeBytes [s.readByte s.pc.toNat, s.readByte (s.pc.toNat + 1)] = .ok (i, [])) :
    decodeWord s.fetchWord = .ok i := by
  rw [State.fetchWord]
  unfold decodeBytes at h
  cases hw : decodeWord (wordOfBytes (s.readByte s.pc.toNat) (s.readByte (s.pc.toNat + 1))) with
  | ok j => simpa [hw] using h
  | error e => simp [hw] at h

/-- Settles O9: a step that fetches dispatches the fetched word, which is the instruction the two bytes decode to. -/
theorem stepRunsTheDecodedInstruction : Obligations.StepRunsTheDecodedInstruction := by
  refine ⟨fun s i hm hpc hdec => ?_, fun t a h => State.reportAt_of_ok h a, fun t a r h => State.reportAt_of_error h a,
    fun s w i hm hdec => (execute_of_running w hm).trans (dispatch_of_decodeWord hdec s)⟩
  rw [step_of_running hm hpc, fetchAndDispatch, dispatch_of_decodeWord (decodeWord_fetchWord hdec)]

/-- Settles O10: the reported address is the larger of `pc` and 4096. -/
theorem fetchPastMemoryRaises : Obligations.FetchPastMemoryRaises := by
  intro s hm hpc
  have haddr : max s.pc.toNat 4096 = if 4095 < s.pc.toNat then s.pc.toNat else 4096 := by
    split <;> omega
  exact ⟨_, step_of_pc_gt hm hpc, (keepsAllBut_self [] s).setResult _, by rw [State.setResult_result, haddr]⟩

/-- Settles O11: under both entries the word is dispatched, which raises; a step advances `pc` first and moves the report
back to the word. -/
theorem unsupportedWordRaises : Obligations.UnsupportedWordRaises := by
  intro s w hm hw
  refine ⟨⟨_, (execute_of_running w hm).trans (dispatch_of_unsupportedWord hw s),
    (keepsAllBut_self [] s).setResult _, rfl⟩, fun hpc hbytes => ?_⟩
  have hfetch : s.fetchWord = w := BitVec.eq_of_toNat_eq ((wordOfBytes_toNat _ _).trans hbytes)
  have hstep : step s = mapNext (·.reportAt s.pc) (raise .unsupportedOpcode (some w) none (s.setPc (s.pc + 2))) := by
    rw [step_of_running hm hpc, fetchAndDispatch, hfetch, dispatch_of_unsupportedWord hw]
  exact ⟨_, hstep, ((s.setPc_keepsAllBut _).setResult _).reportAt s.pc, rfl, rfl⟩

/-- The word of SYS nnn is `0nnn`. -/
theorem encode_sys (nnn : Addr12) : encode (.sys nnn) = nnn.setWidth 16 := by
  apply BitVec.eq_of_toNat_eq
  rw [encode, wordA_toNat, BitVec.toNat_setWidth]
  show 0 * 4096 + nnn.toNat = nnn.toNat % 65536
  omega

/-- Settles O12: SYS raises in every state. -/
theorem sysTakesUnsupportedOpcode : Obligations.SysTakesUnsupportedOpcode := by
  intro nnn s
  obtain ⟨t, hnext, hres, hframe⟩ := raisesError_of_errorOf_some (s := s) (i := .sys nnn) rfl
  exact ⟨t, hnext, hframe, _, hres, rfl, rfl, congrArg some (encode_sys nnn), rfl, rfl⟩

end Sys2Proof.Machine
end

section
/-! SUPPORT. Control flow, the call stack and the skips (41_control_flow.md, 44_key_timer_index.md R260, R261): O22 to O27. -/

namespace Sys2Proof.Machine

variable {s t : State}

/-! ## Operands as numbers (30_encoding.md R103) -/

theorem zextAddr_toNat (nnn : Addr12) : (zextAddr nnn).toNat = nnn.toNat := by
  rw [zextAddr, BitVec.toNat_setWidth]
  omega

theorem zextByte_toNat (b : Byte) : (zextByte b).toNat = b.toNat := by
  rw [zextByte, BitVec.toNat_setWidth]
  omega

/-! ## Jumps -/

/-- Settles O22: both jumps always complete; the sum of a 12-bit and an 8-bit number does not wrap. -/
theorem jumpsSetPc : Obligations.JumpsSetPc := by
  intro nnn s
  have hsum : (zextAddr nnn + zextByte (s.getV 0)).toNat = nnn.toNat + (s.getV 0).toNat := by
    rw [BitVec.toNat_add, zextAddr_toNat, zextByte_toNat]
    omega
  exact ⟨⟨_, exec_of_errorOf_none rfl, rfl, zextAddr_toNat nnn, okEffect_setResult_keepsAllBut s (.jpNnn nnn) .ok⟩,
    ⟨_, exec_of_errorOf_none rfl, rfl, hsum, okEffect_setResult_keepsAllBut s (.jpV0Nnn nnn) .ok⟩⟩

/-! ## The call stack (R35) -/

@[simp] theorem State.popReturn_sp (s : State) : s.popReturn.sp = s.sp - 1 := rfl

/-- The top of a stack whose slot exists. -/
theorem State.topReturn_of_getElem? {w : Word} (h : s.stack[s.sp - 1]? = some w) : s.topReturn = w := by
  simp [State.topReturn, List.getD_eq_getElem?_getD, h]

theorem errorOf_callNnn_of_lt (nnn : Addr12) (h : s.sp < s.cfg.stackDepth) : errorOf s (.callNnn nnn) = none :=
  if_neg (Nat.not_le.mpr h)

theorem errorOf_ret_of_pos (h : 0 < s.sp) : errorOf s .ret = none := if_neg (Nat.ne_of_gt h)

/-- Settles O23: below capacity the slot at SP exists and receives `pc`; at capacity the test of R161 raises. -/
theorem callPushesAndJumps : Obligations.CallPushesAndJumps := by
  intro nnn s hinv
  refine ⟨fun hroom => ?push, fun hfull => raisesError_of_errorOf_some (if_pos hfull.ge)⟩
  have hslot : s.sp < s.stack.length := hinv.stackLength ▸ hroom
  exact ⟨_, exec_of_errorOf_none (errorOf_callNnn_of_lt nnn hroom), rfl, zextAddr_toNat nnn, rfl,
    List.getElem?_set_self hslot, fun k hk => List.getElem?_set_ne hk.symm,
    okEffect_setResult_keepsAllBut s (.callNnn nnn) .ok⟩

/-- Settles O24: under the invariant the top slot exists; at depth 0 the test of R162 raises. -/
theorem retPopsIntoPc : Obligations.RetPopsIntoPc := by
  intro s hinv
  refine ⟨fun hpos => ?pop, fun hempty => raisesError_of_errorOf_some (if_pos hempty)⟩
  have hslot : s.sp - 1 < s.stack.length := by
    have hle := hinv.depthInRange
    have hlen := hinv.stackLength
    omega
  have htop : s.stack[s.sp - 1]? = some s.topReturn := by
    rw [State.topReturn_of_getElem? (List.getElem?_eq_getElem hslot), List.getElem?_eq_getElem hslot]
  exact ⟨_, exec_of_errorOf_none (errorOf_ret_of_pos hpos), rfl, htop, rfl, rfl,
    okEffect_setResult_keepsAllBut s .ret .ok⟩

/-- Settles O25: the slot that CALL pushed is one of those below the depth at which RET runs. -/
theorem retComesBackFromCall : Obligations.RetComesBackFromCall := by
  intro nnn s t u v hinv hcall hok hsp hslots hret
  obtain ⟨hnone, rfl⟩ := exec_ok hcall hok
  have hroom : s.sp < s.stack.length := by simpa [errorOf, hinv.stackLength] using hnone
  have hdepth : u.sp = s.sp + 1 := hsp
  have htop : u.topReturn = s.pc := State.topReturn_of_getElem? (by
    rw [hdepth, Nat.add_sub_cancel, hslots s.sp (Nat.lt_succ_self _)]
    exact List.getElem?_set_self hroom)
  have hrun := exec_of_errorOf_none (errorOf_ret_of_pos (by omega : 0 < u.sp))
  obtain rfl : _ = v := Host.Outcome.next.inj (hrun.symm.trans hret)
  exact ⟨rfl, htop, by simp [okEffect, hdepth]⟩

/-! ## Skips -/

theorem State.skipIf_pc_toNat (s : State) (c : Bool) :
    (s.skipIf c).pc.toNat = if c = true then (s.pc.toNat + 2) % 65536 else s.pc.toNat := by
  cases c
  · rfl
  · rw [State.skipIf_pc, if_pos rfl, if_pos rfl, BitVec.toNat_add]
    rfl

/-- An instruction that completes with a skip: `pc` is two further exactly when `p` holds, and nothing else changed. -/
theorem exec_skipIf {i : Instr} {c : Bool} {p : Prop} [Decidable p] (hok : errorOf s i = none)
    (heff : okEffect s i = s.skipIf c) (hc : c = true ↔ p) :
    ∃ t, exec i s = .next t ∧ t.result = .ok ∧ KeepsAllBut [.pc] s t ∧
      t.pc.toNat = if p then (s.pc.toNat + 2) % 65536 else s.pc.toNat := by
  refine ⟨_, exec_of_errorOf_none hok, rfl, ?_, ?_⟩
  · exact heff ▸ (s.skipIf_keepsAllBut c).setResult .ok
  · simp only [heff, State.setResult_pc, State.skipIf_pc_toNat, hc]

/-- Settles O26: the condition of each skip is its Boolean test. -/
theorem skipsFollowTheirCondition : Obligations.SkipsFollowTheirCondition := fun x y kk s =>
  ⟨exec_skipIf (i := .seVxKk x kk) rfl rfl (by simp), exec_skipIf (i := .sneVxKk x kk) rfl rfl (by simp),
    exec_skipIf (i := .seVxVy x y) rfl rfl (by simp), exec_skipIf (i := .sneVxVy x y) rfl rfl (by simp)⟩

/-- Settles O27: up to 15 the key skips test bit `V[x]` of the keyboard; above 15 they raise with that number. -/
theorem keySkipsFollowTheKeyboard : Obligations.KeySkipsFollowTheKeyboard := by
  intro x s
  refine ⟨fun hle => ⟨?_, ?_⟩, fun hgt => ⟨raisesError_of_errorOf_some (if_pos hgt),
    raisesError_of_errorOf_some (if_pos hgt)⟩⟩
  · exact exec_skipIf (i := .skpVx x) (if_neg (Nat.not_lt.mpr hle)) rfl (by simp [State.keyPressed])
  · exact exec_skipIf (i := .sknpVx x) (if_neg (Nat.not_lt.mpr hle)) rfl (by simp [State.keyPressed])

end Sys2Proof.Machine
end

section
/-! SUPPORT. The register group (42_alu.md), O30 to O34, and the timers, the index register and the entry of the key wait
(44_key_timer_index.md R262 to R268), O39 to O41. -/

namespace Sys2Proof.Machine

variable {s t : State}

/-! ## An instruction whose effect is a write of one register, or of a result and the flag -/

/-- The completed write of a byte with `P` to `V[x]`. -/
theorem exec_setV {i : Instr} {x : Nibble} {b : Byte} {P : Byte → Prop} (h : exec i s = complete (s.setV x b))
    (hP : P b) : ∃ t, exec i s = .next t ∧ t.result = .ok ∧ P (t.getV x) ∧
      (∀ j, j ≠ x → t.getV j = s.getV j) ∧ KeepsAllBut [.registers] s t := by
  obtain ⟨t, hnext, hok, hx, hothers, hframe⟩ := complete_setV s x b
  exact ⟨t, h.trans hnext, hok, hx ▸ hP, hothers, hframe⟩

/-- The completed write of a byte with `R` to `V[x]` and then of a flag with `F` to VF, which wins where `x` is VF
(R190, D9). -/
theorem exec_setVWithFlag {i : Instr} {x : Nibble} {b : Byte} {f : Bool} {F R : Byte → Prop}
    (h : exec i s = complete (s.setVWithFlag x b f)) (hF : F (flagByte f)) (hR : R b) :
    ∃ t, exec i s = .next t ∧ t.result = .ok ∧ F (t.getV 0xF#4) ∧ (x ≠ 0xF#4 → R (t.getV x)) ∧
      (∀ j, j ≠ x → j ≠ 0xF#4 → t.getV j = s.getV j) ∧ KeepsAllBut [.registers] s t := by
  refine ⟨(s.setVWithFlag x b f).setResult .ok, h, rfl, ?flag, fun hx => ?result, fun j hj hjF => ?others,
    (s.setVWithFlag_keepsAllBut x b f).setResult .ok⟩
  case flag => simpa [State.getV_setVWithFlag, regF] using hF
  case result => simpa [State.getV_setVWithFlag, regF, hx] using hR
  case others => simp [State.getV_setVWithFlag, regF, hj, hjF]

/-! ## Arithmetic and logic -/

/-- Settles O30: each completes the write of one byte, whose bits are the operation on the operands' bits. -/
theorem movesAndLogicHaveNoFlag : Obligations.MovesAndLogicHaveNoFlag := fun x y s =>
  ⟨exec_setV (i := .ldVxVy x y) (P := (· = s.getV y)) rfl rfl,
    exec_setV (i := .orVxVy x y)
      (P := fun r => ∀ b : Nat, b < 8 → r.getLsbD b = ((s.getV x).getLsbD b || (s.getV y).getLsbD b)) rfl
      fun _ _ => BitVec.getLsbD_or,
    exec_setV (i := .andVxVy x y)
      (P := fun r => ∀ b : Nat, b < 8 → r.getLsbD b = ((s.getV x).getLsbD b && (s.getV y).getLsbD b)) rfl
      fun _ _ => BitVec.getLsbD_and,
    exec_setV (i := .xorVxVy x y)
      (P := fun r => ∀ b : Nat, b < 8 → r.getLsbD b = Bool.xor ((s.getV x).getLsbD b) ((s.getV y).getLsbD b)) rfl
      fun _ _ => BitVec.getLsbD_xor⟩

theorem flagByte_carryOut (a b : Byte) : flagByte (carryOut a b) = if a.toNat + b.toNat > 255 then 1 else 0 := by
  simp [flagByte, carryOut]

theorem flagByte_noBorrow (a b : Byte) : flagByte (noBorrow a b) = if a.toNat > b.toNat then 1 else 0 := by
  simp [flagByte, noBorrow]

theorem flagByte_toNat (f : Bool) : (flagByte f).toNat = f.toNat := by
  cases f <;> rfl

theorem shiftedOutRight_toNat (a : Byte) : (shiftedOutRight a).toNat = a.toNat % 2 := by
  rw [shiftedOutRight, BitVec.getLsbD, Nat.toNat_testBit]
  omega

theorem shiftedOutLeft_toNat (a : Byte) : (shiftedOutLeft a).toNat = a.toNat / 128 := by
  rw [shiftedOutLeft, BitVec.getLsbD, Nat.toNat_testBit]
  omega

theorem sub_toNat (a b : Byte) : (a - b).toNat = (a.toNat + 256 - b.toNat) % 256 := by
  rw [BitVec.toNat_sub]
  omega

theorem shiftLeft_one_toNat (a : Byte) : (a <<< 1).toNat = a.toNat * 2 % 256 := by
  rw [BitVec.toNat_shiftLeft, Nat.shiftLeft_eq]

theorem ushiftRight_one_toNat (a : Byte) : (a >>> 1).toNat = a.toNat / 2 := by
  rw [BitVec.toNat_ushiftRight, Nat.shiftRight_eq_div_pow]

/-- Settles O31: the carry is that of the unmasked sum. -/
theorem addSetsCarry : Obligations.AddSetsCarry := fun x y s =>
  exec_setVWithFlag (i := .addVxVy x y) (F := (· = if (s.getV x).toNat + (s.getV y).toNat > 255 then 1 else 0))
    (R := (·.toNat = ((s.getV x).toNat + (s.getV y).toNat) % 256)) rfl (flagByte_carryOut _ _) (BitVec.toNat_add _ _)

/-- Settles O32: SUBN is SUB with the operands exchanged. -/
theorem subtractSetsNoBorrow : Obligations.SubtractSetsNoBorrow := fun x y s =>
  ⟨exec_setVWithFlag (i := .subVxVy x y) (F := (· = if (s.getV x).toNat > (s.getV y).toNat then 1 else 0))
      (R := (·.toNat = ((s.getV x).toNat + 256 - (s.getV y).toNat) % 256)) rfl (flagByte_noBorrow _ _) (sub_toNat _ _),
    exec_setVWithFlag (i := .subnVxVy x y) (F := (· = if (s.getV y).toNat > (s.getV x).toNat then 1 else 0))
      (R := (·.toNat = ((s.getV y).toNat + 256 - (s.getV x).toNat) % 256)) rfl (flagByte_noBorrow _ _) (sub_toNat _ _)⟩

/-- Settles O33: neither meaning reads the `y` field. -/
theorem shiftsSetTheBitShiftedOut : Obligations.ShiftsSetTheBitShiftedOut := fun x y s =>
  ⟨exec_setVWithFlag (i := .shrVx x y) (F := (·.toNat = (s.getV x).toNat % 2))
      (R := (·.toNat = (s.getV x).toNat / 2)) rfl ((flagByte_toNat _).trans (shiftedOutRight_toNat _))
      (ushiftRight_one_toNat _),
    exec_setVWithFlag (i := .shlVx x y) (F := (·.toNat = (s.getV x).toNat / 128))
      (R := (·.toNat = (s.getV x).toNat * 2 % 256)) rfl ((flagByte_toNat _).trans (shiftedOutLeft_toNat _))
      (shiftLeft_one_toNat _)⟩

/-- Settles O34: the byte is the free one of the draw count before the count goes up. -/
theorem randomIsAMaskedFreeByte : Obligations.RandomIsAMaskedFreeByte := by
  intro x kk s
  have hx : ((okEffect s (.rndVxKk x kk)).setResult .ok).getV x = Config.randomByte s.draws &&& kk :=
    s.countDraw.getV_setV_same x _
  refine ⟨_, exec_of_errorOf_none rfl, rfl, hx, fun b hb => ?_, rfl, fun j hj => s.countDraw.getV_setV_ne hj _,
    okEffect_setResult_keepsAllBut s (.rndVxKk x kk) .ok⟩
  rw [hx, BitVec.getLsbD_and, hb, Bool.and_false]

/-! ## Timers, index register, key wait -/

/-- Settles O39: each completes one write, of the byte it copies. -/
theorem timerMovesCopyOneByte : Obligations.TimerMovesCopyOneByte := fun x s =>
  ⟨exec_setV (i := .ldVxDt x) (P := (· = s.dt)) rfl rfl,
    ⟨_, exec_of_errorOf_none rfl, rfl, rfl, okEffect_setResult_keepsAllBut s (.ldDtVx x) .ok⟩,
    ⟨_, exec_of_errorOf_none rfl, rfl, rfl, okEffect_setResult_keepsAllBut s (.ldStVx x) .ok⟩⟩

theorem glyphAddress_toNat (c : Config) (a : Byte) :
    (glyphAddress c a).toNat = c.fontBase.val + 5 * (a.toNat % 16) := by
  rw [glyphAddress, BitVec.toNat_ofNat]
  omega

/-- Settles O40: the sum wraps at 16 bits; a glyph address, at most 4016 + 75, does not. -/
theorem indexWritesSetI : Obligations.IndexWritesSetI := by
  intro x nnn s
  have hsum : (s.i + zextByte (s.getV x)).toNat = (s.i.toNat + (s.getV x).toNat) % 65536 := by
    rw [BitVec.toNat_add, zextByte_toNat]
  exact ⟨⟨_, exec_of_errorOf_none rfl, rfl, zextAddr_toNat nnn, okEffect_setResult_keepsAllBut s (.ldINnn nnn) .ok⟩,
    ⟨_, exec_of_errorOf_none rfl, rfl, hsum, okEffect_setResult_keepsAllBut s (.addIVx x) .ok⟩,
    ⟨_, exec_of_errorOf_none rfl, rfl, glyphAddress_toNat s.cfg (s.getV x),
      okEffect_setResult_keepsAllBut s (.ldFVx x) .ok⟩⟩

/-- Settles O41: the wait state is the only piece written. -/
theorem keyWaitIsEntered : Obligations.KeyWaitIsEntered := fun x s =>
  ⟨_, exec_of_errorOf_none rfl, rfl, rfl, rfl, rfl, okEffect_setResult_keepsAllBut s (.ldVxK x) .ok⟩

end Sys2Proof.Machine
end

section
/-! SUPPORT. The key capture in its three modes (40_fetch_dispatch.md R137), O42; reset and the host operations on keyboard,
display and `pc` (60_exceptions.md R312 to R316, 92_eei_decisions.md D21), O1, O49, O51 and O52. -/

namespace Sys2Proof.Machine

variable {s t : State}

/-! ## The lowest pressed key (R9) -/

theorem lowestSet_toNat {m : Word} {k : Nat} (h : IsLowestSet m k) : (lowestSet m).toNat = k := by
  obtain ⟨hlt, hset, hbelow⟩ := h
  have hfind : (List.range 16).find? (fun j => m.getLsbD j) = some k := by
    rw [List.find?_range_eq_some]
    exact ⟨hset, List.mem_range.mpr hlt, fun j hj => by simp [hbelow j hj]⟩
  rw [lowestSet, hfind, Option.getD_some, BitVec.toNat_ofNat]
  omega

theorem IsLowestSet.ne_zero {m : Word} {k : Nat} (h : IsLowestSet m k) : m ≠ 0 := by
  rintro rfl
  obtain ⟨_, hset, _⟩ := h
  simp at hset

/-- No key is newly pressed when every pressed key is in the snapshot. -/
theorem and_not_eq_zero {a b : Word} (h : ∀ k, k < 16 → a.getLsbD k = true → b.getLsbD k = true) :
    a &&& ~~~b = 0 := by
  apply BitVec.eq_of_getLsbD_eq
  intro k hk
  have hsub := h k hk
  rw [BitVec.getLsbD_and, BitVec.getLsbD_not]
  cases ha : a.getLsbD k
  · simp
  · simp [hsub ha]

/-! ## The three modes of the capture (R137, D14) -/

/-- A capture of the lowest set key stores its number. -/
theorem State.capture_lowestSet {m : Word} {k : Nat} (s : State) (h : IsLowestSet m k) :
    CapturedValue s ((s.capture (lowestSet m)).setResult .ok) k :=
  lowestSet_toNat h ▸ s.capture_capturedValue (lowestSet m)

theorem State.captureEdge_of_new {k : Nat} (h : IsLowestSet (s.keys &&& ~~~s.keySnapshot) k) :
    CapturedValue s (s.captureEdge.setResult .ok) k := by
  rw [State.captureEdge, if_pos h.ne_zero]
  exact s.capture_lowestSet h

theorem State.captureEdge_of_none_new (hm : s.mode = .awaitKeyPress)
    (h : ∀ k, k < 16 → s.keys.getLsbD k = true → s.keySnapshot.getLsbD k = true) :
    StillWaiting s (s.captureEdge.setResult .ok) s.keys := by
  rw [State.captureEdge, if_neg (not_not.mpr (and_not_eq_zero h))]
  exact State.setWait_stillWaiting hm s.keys

theorem State.captureLevel_of_pressed {k : Nat} (h : IsLowestSet s.keys k) :
    CapturedValue s (s.captureLevel.setResult .ok) k := by
  rw [State.captureLevel, if_pos h.ne_zero]
  exact s.capture_lowestSet h

theorem State.captureLevel_of_none (hm : s.mode = .awaitKeyPress) (h : s.keys = 0) :
    StillWaiting s (s.captureLevel.setResult .ok) s.keySnapshot := by
  rw [State.captureLevel, if_neg (not_not.mpr h)]
  exact ⟨hm, fun _ => rfl, rfl, rfl⟩

theorem State.captureSnapshot_of_pressed {k : Nat} (h : IsLowestSet s.keys k) :
    CapturedValue s (s.captureSnapshot.setResult .ok) k := by
  rw [State.captureSnapshot, if_pos h.ne_zero]
  exact s.capture_lowestSet h

theorem State.captureSnapshot_of_none (h : s.keys = 0) :
    CapturedValue s (s.captureSnapshot.setResult .ok) s.cfg.noKeyValue.toNat := by
  rw [State.captureSnapshot, if_neg (not_not.mpr h)]
  exact s.capture_capturedValue s.cfg.noKeyValue

/-- Settles O42: while waiting, both entries complete the key capture, which is that of the configured mode. -/
theorem keyCaptureFollowsItsMode : Obligations.KeyCaptureFollowsItsMode := by
  intro s w hm
  refine ⟨_, step_of_awaitKeyPress hm, execute_of_awaitKeyPress w hm, rfl, (keyCapture_keepsAllBut s).setResult .ok, ?_⟩
  cases hmode : s.cfg.keyWaitMode <;> simp only [State.keyCapture, hmode]
  case edge => exact ⟨fun _ => State.captureEdge_of_new, State.captureEdge_of_none_new hm⟩
  case level => exact ⟨fun _ => State.captureLevel_of_pressed, State.captureLevel_of_none hm⟩
  case snapshot => exact ⟨fun _ => State.captureSnapshot_of_pressed, State.captureSnapshot_of_none⟩

/-! ## Reset (R340) -/

theorem resetByte_outside_font {c : Config} {a : Nat} (h : ¬(c.fontBase.val ≤ a ∧ a < c.fontBase.val + 80)) :
    resetByte c a = 0 := dif_neg h

/-- Row `r` of glyph `g` (R77). -/
theorem resetByte_font (c : Config) (g : Fin 16) (r : Fin 5) :
    resetByte c (c.fontBase.val + 5 * g.val + r.val) = c.fontGlyphs[g][r] := by
  have hglyph : (c.fontBase.val + 5 * g.val + r.val - c.fontBase.val) / 5 = g.val := by omega
  have hrow : (c.fontBase.val + 5 * g.val + r.val - c.fontBase.val) % 5 = r.val := by omega
  rw [resetByte, dif_pos (by omega)]
  simp [hglyph, hrow]

theorem resetWith_getV (c : Config) (j : Nibble) : (State.resetWith c).getV j = 0 := by
  simp [State.getV, State.resetWith]

theorem resetWith_pc_toNat (c : Config) : (State.resetWith c).pc.toNat = c.loadAddress.val :=
  Nat.mod_eq_of_lt (by omega)

theorem hostReset_keepsAllBut (s : State) : KeepsAllBut [.draws] (State.resetWith s.cfg) (hostReset s) :=
  keepsAllBut_of_mem_or_same fun p => by cases p <;> simp [Piece.same, hostReset, State.readByte, State.getV]

/-- Settles O1: every element is read off `State.resetWith`, and memory, which lists nothing, reads as its reset bytes. -/
theorem resetLeavesTheStatedValues : Obligations.ResetLeavesTheStatedValues := by
  refine ⟨fun c => ⟨fun a => resetByte_outside_font, resetByte_font c, resetWith_getV c, resetWith_pc_toNat c, rfl, rfl,
    List.length_replicate, fun w hw => (List.mem_replicate.mp hw).2, rfl, rfl, rfl, Display.get_clear, rfl, rfl, rfl, rfl⟩,
    fun s => ⟨hostReset_keepsAllBut s, rfl⟩, rfl, rfl, rfl, rfl, rfl, rfl, rfl⟩

/-! ## Keyboard, flat display, `setPC` -/

/-- Bit `j` of `K` after `setKeyState` (R315). -/
theorem setKeyState_getLsbD (k : Fin 16) (pressed : Bool) (s : State) (j : Nat) :
    (setKeyState k pressed s).keys.getLsbD j = if j = k.val then pressed else s.keys.getLsbD j := by
  have hmask : (1#16 <<< k.val).getLsbD j = decide (j = k.val) := by
    rw [BitVec.getLsbD_shiftLeft, BitVec.getLsbD_one, Bool.eq_iff_iff]
    simp only [Bool.and_eq_true, Bool.not_eq_true', decide_eq_true_eq, decide_eq_false_iff_not]
    omega
  have hlt : s.keys.getLsbD j = true → j < 16 := BitVec.lt_of_getLsbD
  by_cases hj : j = k.val
  · subst hj
    rw [if_pos rfl]
    cases pressed <;> simp [setKeyState]
  · rw [if_neg hj]
    cases pressed
    · simpa [setKeyState, hmask, hj] using hlt
    · simp [setKeyState, hmask, hj]

/-- Settles O49: the mask has bit `k` alone. -/
theorem setKeyStateWritesOneKey : Obligations.SetKeyStateWritesOneKey := fun k pressed s =>
  ⟨by rw [setKeyState_getLsbD, if_pos rfl], fun j hj => by rw [setKeyState_getLsbD, if_neg hj],
    s.setKeys_keepsAllBut _⟩

/-- Settles O51: the index splits into row and column again. -/
theorem flatDisplayIsRowMajor : Obligations.FlatDisplayIsRowMajor := by
  intro s c r
  have hrow : (r.val * 64 + c.val) / 64 = r.val := by omega
  have hcol : (r.val * 64 + c.val) % 64 = c.val := by omega
  have hlt : r.val * 64 + c.val < 2048 := by omega
  rw [displayFlat, Vector.getElem?_eq_getElem hlt, Vector.getElem_ofFn]
  simp [hrow, hcol, getDisplay, Display.get]

/-- Settles O52: `setPC` reduces its number mod 2^16 and writes it to `pc`. -/
theorem setPcWritesOnlyPc : Obligations.SetPcWritesOnlyPc := fun v s =>
  ⟨hostSetPc v s, rfl, BitVec.toNat_ofNat v 16, rfl, s.setPc_keepsAllBut _⟩

end Sys2Proof.Machine
end

section
/-! SUPPORT. Memory transfers (44_key_timer_index.md R269 to R271) and the host's load (60_exceptions.md R318): what a
store leaves at each address, O43 to O47 and O50; the canonical form of a memory, O21. -/

namespace Sys2Proof.Machine

variable {s t : State}

/-! ## The canonical form (log 5) -/

/-- The listed byte of a memory with rising addresses is the byte read. -/
theorem Memory.read_of_mem {d : Nat → Byte} {m : Memory} (hm : m.Pairwise (fun p q => p.1 < q.1)) {p : Host.Cell}
    (hp : p ∈ m) : Memory.read d m p.1 = p.2 := by
  induction m with
  | nil => simp at hp
  | cons q m ih =>
    obtain ⟨hq, hm⟩ := List.pairwise_cons.mp hm
    rcases List.mem_cons.mp hp with rfl | hp
    · simp [Memory.read]
    · rw [Memory.read, if_neg (Nat.ne_of_gt (hq p hp)), ih hm hp]

/-- An address that reads other than unlisted is listed, with that byte. -/
theorem Memory.mem_of_read_ne {d : Nat → Byte} {m : Memory} {a : Nat} (h : Memory.read d m a ≠ d a) :
    (a, Memory.read d m a) ∈ m := by
  induction m with
  | nil => exact absurd rfl h
  | cons q m ih =>
    obtain ⟨b, u⟩ := q
    rw [Memory.read] at h ⊢
    split_ifs at h ⊢ with hab
    · simp [hab]
    · exact List.mem_cons_of_mem _ (ih h)

/-- A canonical memory lists exactly the bytes that read other than unlisted. -/
theorem Memory.mem_iff_read {d : Nat → Byte} {m : Memory} (hm : Memory.wf d m) (p : Host.Cell) :
    p ∈ m ↔ Memory.read d m p.1 = p.2 ∧ p.2 ≠ d p.1 := by
  obtain ⟨hrising, hlisted⟩ := hm
  constructor
  · exact fun hp => ⟨Memory.read_of_mem hrising hp, (hlisted p hp).2⟩
  · rintro ⟨hread, hne⟩
    have hmem := Memory.mem_of_read_ne (hread.symm ▸ hne : Memory.read d m p.1 ≠ d p.1)
    rwa [hread] at hmem

/-- Settles O21: the two lists have the same members, by `Memory.mem_iff_read`, in the same rising order. -/
theorem canonicalMemoriesReadingAlikeAreEqual : Obligations.CanonicalMemoriesReadingAlikeAreEqual := by
  intro d m n hm hn hread
  have : Std.Irrefl fun p q : Host.Cell => p.1 < q.1 := ⟨fun p => Nat.lt_irrefl p.1⟩
  have : Std.Antisymm fun p q : Host.Cell => p.1 < q.1 := ⟨fun p q h h' => absurd h' (Nat.lt_asymm h)⟩
  refine List.Pairwise.eq_of_mem_iff hm.1 hn.1 fun p => ?_
  rw [Memory.mem_iff_read hm, Memory.mem_iff_read hn, hread]

/-! ## What a store of several bytes leaves (R72, R73) -/

/-- A store touches nothing, or stays inside memory: the host's empty image may start anywhere (R318). -/
abbrev StoreFits (a : Nat) (xs : List Byte) : Prop := xs = [] ∨ a + xs.length ≤ 4096

theorem State.readByte_writeBytes_inside (h : s.Inv) {a j : Nat} {xs : List Byte} (hfits : StoreFits a xs)
    (hj : j < xs.length) : (s.writeBytes a xs).readByte (a + j) = xs[j] := by
  have hr : a + xs.length ≤ 4096 := hfits.resolve_left (List.ne_nil_of_length_pos (by omega))
  rw [State.readByte_writeBytes h.memoryWf hr, dif_pos (by omega)]
  simp

theorem State.readByte_writeBytes_outside (h : s.Inv) {a b : Nat} {xs : List Byte} (hfits : StoreFits a xs)
    (hb : ¬(a ≤ b ∧ b < a + xs.length)) : (s.writeBytes a xs).readByte b = s.readByte b := by
  rcases hfits with rfl | hr
  · rfl
  · rw [State.readByte_writeBytes h.memoryWf hr, dif_neg hb]

/-- Every byte after a store of bytes with the values `new`. -/
theorem State.readByte_writeBytes_toNat (h : s.Inv) {a : Nat} {xs : List Byte} (hfits : StoreFits a xs)
    {new : Nat → Nat} (hnew : ∀ (k : Nat) (hk : k < xs.length), xs[k].toNat = new k) (b : Nat) :
    ((s.writeBytes a xs).readByte b).toNat = byteAfterStore s a xs.length new b := by
  unfold byteAfterStore
  split
  next hin =>
    obtain ⟨k, rfl⟩ := Nat.exists_eq_add_of_le hin.1
    rw [State.readByte_writeBytes_inside h hfits (by omega), hnew, Nat.add_sub_cancel_left]
  next hout => rw [State.readByte_writeBytes_outside h hfits hout]

/-- The word the next fetch reads after that store (R84). -/
theorem State.fetchWord_writeBytes (h : s.Inv) {a : Nat} {xs : List Byte} (hfits : StoreFits a xs)
    {new : Nat → Nat} (hnew : ∀ (k : Nat) (hk : k < xs.length), xs[k].toNat = new k) :
    (s.writeBytes a xs).fetchWord.toNat = wordAfterStore s a xs.length new := by
  rw [State.fetchWord, wordOfBytes_toNat, State.writeBytes_pc, State.readByte_writeBytes_toNat h hfits hnew,
    State.readByte_writeBytes_toNat h hfits hnew, wordAfterStore]

/-! ## LD B (R269) -/

theorem errorOf_ldBVx_of_fits {x : Nibble} (h : s.i.toNat + 2 ≤ 4095) : errorOf s (.ldBVx x) = none :=
  if_pos (by omega)

theorem bcdDigits_fit {a : Byte} (h : s.i.toNat + 2 ≤ 4095) : StoreFits s.i.toNat (bcdDigits a) :=
  .inr (by simp only [bcdDigits, List.length_cons, List.length_nil]; omega)

/-- Settles O43: the three digits are stored from `I`; from 0xFFE on the range check raises. -/
theorem bcdStoresThreeDigits : Obligations.BcdStoresThreeDigits := by
  intro x s hinv
  refine ⟨fun h => ?store, fun h => raisesError_of_errorOf_some (if_neg (by omega))⟩
  have hdigit {j : Nat} (hj : j < 3) : (s.writeBytes s.i.toNat (bcdDigits (s.getV x))).readByte (s.i.toNat + j) =
      (bcdDigits (s.getV x))[j] := State.readByte_writeBytes_inside hinv (bcdDigits_fit h) hj
  refine ⟨_, exec_of_errorOf_none (errorOf_ldBVx_of_fits h), rfl, ?hundreds, ?tens, ?ones, fun a ha => ?outside,
    okEffect_setResult_keepsAllBut s (.ldBVx x) .ok⟩
  case hundreds => exact congrArg BitVec.toNat (hdigit (j := 0) (by omega))
  case tens => exact congrArg BitVec.toNat (hdigit (j := 1) (by omega))
  case ones => exact congrArg BitVec.toNat (hdigit (j := 2) (by omega))
  case outside =>
    have hout : ¬(s.i.toNat ≤ a ∧ a < s.i.toNat + (bcdDigits (s.getV x)).length) := by
      simp only [bcdDigits, List.length_cons, List.length_nil]
      omega
    exact State.readByte_writeBytes_outside hinv (bcdDigits_fit h) hout

/-! ## LD [I], Vx (R270) -/

/-- Entry `k` of the block is `V[k]`. -/
theorem State.regBlock_getElem (s : State) (x : Nibble) {k : Nat} (h : k < (s.regBlock x).length) :
    (s.regBlock x)[k] = s.getV (BitVec.ofNat 4 k) := by
  simp [State.regBlock]

theorem errorOf_ldMemVx_of_fits {x : Nibble} (h : s.i.toNat + x.toNat ≤ 4095) : errorOf s (.ldMemVx x) = none :=
  if_pos (by omega)

theorem regBlock_fits {x : Nibble} (h : s.i.toNat + x.toNat ≤ 4095) : StoreFits s.i.toNat (s.regBlock x) :=
  .inr (by rw [State.regBlock_length]; omega)

/-- The bytes a block store leaves at `I` and up. -/
theorem readByte_writeBytes_regBlock {x j : Nibble} (hinv : s.Inv) (h : s.i.toNat + x.toNat ≤ 4095)
    (hj : j.toNat ≤ x.toNat) :
    (s.writeBytes s.i.toNat (s.regBlock x)).readByte (s.i.toNat + j.toNat) = s.getV j := by
  rw [State.readByte_writeBytes_inside hinv (regBlock_fits h) (by rw [State.regBlock_length]; omega),
    State.regBlock_get s x j hj]

/-- Settles O44: the block is stored from `I`; past 4095 the range check raises. -/
theorem blockStoreWritesRegisters : Obligations.BlockStoreWritesRegisters := by
  intro x s hinv
  refine ⟨fun h => ?store, fun h => raisesError_of_errorOf_some (if_neg (by omega))⟩
  refine ⟨_, exec_of_errorOf_none (errorOf_ldMemVx_of_fits h), rfl, fun j hj => readByte_writeBytes_regBlock hinv h hj,
    fun a ha => ?outside, okEffect_setResult_keepsAllBut s (.ldMemVx x) .ok⟩
  exact State.readByte_writeBytes_outside hinv (regBlock_fits h) (by rw [State.regBlock_length]; omega)

/-! ## LD Vx, [I] (R271) -/

theorem errorOf_ldVxMem_of_fits {x : Nibble} (h : s.i.toNat + x.toNat ≤ 4095) : errorOf s (.ldVxMem x) = none :=
  if_pos (by omega)

theorem getV_setRegs_loadBlock (s : State) (x j : Nibble) : (s.setRegs (s.loadBlock x)).getV j =
    if j.toNat ≤ x.toNat then s.readByte (s.i.toNat + j.toNat) else s.getV j :=
  s.loadBlock_get x j

/-- Settles O45: the block is loaded from `I`; past 4095 the range check raises. -/
theorem blockLoadReadsRegisters : Obligations.BlockLoadReadsRegisters := by
  intro x s
  refine ⟨fun h => ?load, fun h => raisesError_of_errorOf_some (if_neg (by omega))⟩
  refine ⟨(s.setRegs (s.loadBlock x)).setResult .ok, exec_of_errorOf_none (errorOf_ldVxMem_of_fits h), rfl,
    fun j hj => ?loaded, fun j hj => ?kept, okEffect_setResult_keepsAllBut s (.ldVxMem x) .ok⟩
  case loaded => rw [State.getV_setResult, getV_setRegs_loadBlock, if_pos hj]
  case kept => rw [State.getV_setResult, getV_setRegs_loadBlock, if_neg (Nat.not_le.mpr hj)]

/-- Settles O46: the load passes the store's range check and reads, at `I + j`, what the store left there. -/
theorem blockStoreThenLoadGivesBack : Obligations.BlockStoreThenLoadGivesBack := by
  intro x s t u v hinv hstore hok hi hmem hload
  obtain ⟨hnone, rfl⟩ := exec_ok hstore hok
  have hfits : s.i.toNat + x.toNat ≤ 4095 := by
    simp only [errorOf, ite_eq_left_iff, reduceCtorEq, imp_false, not_not] at hnone
    omega
  have hui : u.i = s.i := hi.trans (State.writeBytes_i s _ _)
  have hrun := exec_of_errorOf_none (errorOf_ldVxMem_of_fits (x := x) (hui ▸ hfits : u.i.toNat + x.toNat ≤ 4095))
  obtain rfl : _ = v := Host.Outcome.next.inj (hrun.symm.trans hload)
  refine ⟨rfl, fun j hj => ?_⟩
  calc (u.setRegs (u.loadBlock x)).getV j
      = u.readByte (u.i.toNat + j.toNat) := by rw [getV_setRegs_loadBlock, if_pos hj]
    _ = (s.writeBytes s.i.toNat (s.regBlock x)).readByte (s.i.toNat + j.toNat) := by rw [hui]; exact hmem _
    _ = s.getV j := readByte_writeBytes_regBlock hinv hfits hj

/-! ## The host's load (R318) -/

theorem loadProgram_of_fits {bytes : List Byte} {a : Nat} (h : StoreFits a bytes) (s : State) :
    loadProgram bytes a s = complete (s.writeBytes a bytes) := by
  have hrange : firstOutOfRange a bytes.length = none :=
    firstOutOfRange_none.mpr (h.imp List.length_eq_zero_iff.mpr id)
  rw [loadProgram, hrange]

theorem loadProgram_of_not_fits {bytes : List Byte} {a : Nat} (hne : bytes ≠ []) (h : 4096 < a + bytes.length)
    (s : State) : loadProgram bytes a s = raise .outOfBoundsAccess none (some (max a 4096)) s := by
  have hrange : firstOutOfRange a bytes.length = some (max a 4096) :=
    firstOutOfRange_some.mpr ⟨mt List.length_eq_zero_iff.mp hne, h, rfl⟩
  rw [loadProgram, hrange]

/-- Settles O50: the range check of the whole image comes before any byte. -/
theorem loadProgramIsAllOrNothing : Obligations.LoadProgramIsAllOrNothing := by
  intro bytes a s hinv
  refine ⟨fun h => ?whole, fun hne h => ?nothing⟩
  case whole =>
    exact ⟨_, loadProgram_of_fits h s, rfl, fun j hj => State.readByte_writeBytes_inside hinv h hj,
      fun b hb => State.readByte_writeBytes_outside hinv h hb, (s.writeBytes_keepsAllBut a bytes).setResult .ok⟩
  case nothing =>
    exact ⟨_, loadProgram_of_not_fits hne h s, (keepsAllBut_self [] s).setResult _, rfl⟩

/-! ## A store is seen by the next fetch (R84, R348) -/

/-- The digits as powers of ten give them. -/
theorem bcdDigits_toNat (a : Byte) {k : Nat} (h : k < (bcdDigits a).length) :
    (bcdDigits a)[k].toNat = a.toNat / 10 ^ (2 - k) % 10 := by
  have hk : k < 3 := h
  have ha := a.isLt
  match k, hk with
  | 0, _ =>
    show a.toNat / 100 = a.toNat / 100 % 10
    omega
  | 1, _ => rfl
  | 2, _ =>
    show a.toNat % 10 = a.toNat / 1 % 10
    omega

/-- Settles O47: each of the three is one store of bytes, and the fetch reads it at its two addresses. -/
theorem storesAreSeenByTheNextFetch : Obligations.StoresAreSeenByTheNextFetch := by
  intro x bytes a s hinv
  refine ⟨fun h => ?block, fun h => ?bcd, fun h => ?load⟩
  case block =>
    refine ⟨_, exec_of_errorOf_none (errorOf_ldMemVx_of_fits h), rfl, ?_⟩
    rw [← s.regBlock_length x]
    exact State.fetchWord_writeBytes hinv (regBlock_fits h) fun k hk => congrArg BitVec.toNat (s.regBlock_getElem x hk)
  case bcd =>
    refine ⟨_, exec_of_errorOf_none (errorOf_ldBVx_of_fits h), rfl, ?_⟩
    exact State.fetchWord_writeBytes hinv (bcdDigits_fit h) fun k hk => bcdDigits_toNat (s.getV x) hk
  case load =>
    refine ⟨_, loadProgram_of_fits h s, rfl, ?_⟩
    exact State.fetchWord_writeBytes hinv h fun k hk => by simp [List.getD_eq_getElem?_getD, hk]

end Sys2Proof.Machine
end

section
/-! SUPPORT. The sprite engine (43_display.md R231 to R234): what a stretch of drawing does to the grid and the collision
flag, for one bit, one row and the whole sprite; then O36 to O38. -/

namespace Sys2Proof.Machine

/-- A set of pixels. -/
abbrev PixelSet := Fin 64 → Fin 32 → Prop

/-- From the grid and flag `a` to `b`, exactly the pixels of `cov` were toggled, each once, and the flag was raised exactly
when one of them was 1 (R231 step 5). -/
structure Draws (cov : PixelSet) (a b : Display × Bool) : Prop where
  toggled : ∀ c r, cov c r → b.1.get c r = !a.1.get c r
  kept : ∀ c r, ¬cov c r → b.1.get c r = a.1.get c r
  collided : b.2 = true ↔ a.2 = true ∨ ∃ c r, cov c r ∧ a.1.get c r = true

variable {cov cov' : PixelSet} {a b d : Display × Bool}

theorem Draws.nothing (hcov : ∀ c r, ¬cov c r) (a : Display × Bool) : Draws cov a a where
  toggled c r h := absurd h (hcov c r)
  kept _ _ _ := rfl
  collided := by simp [hcov]

theorem Draws.congr (h : Draws cov a b) (hcov : ∀ c r, cov c r ↔ cov' c r) : Draws cov' a b := by
  have e : cov = cov' := funext fun c => funext fun r => propext (hcov c r)
  exact e ▸ h

/-- Two stretches of drawing that meet no pixel twice are one. -/
theorem Draws.trans (hab : Draws cov a b) (hbd : Draws cov' b d) (hdisj : ∀ c r, cov c r → ¬cov' c r) :
    Draws (fun c r => cov c r ∨ cov' c r) a d where
  toggled c r h := by
    rcases h with h | h
    · rw [hbd.kept c r (hdisj c r h), hab.toggled c r h]
    · rw [hbd.toggled c r h, hab.kept c r fun h' => hdisj c r h' h]
  kept c r h := by
    rw [hbd.kept c r (h ∘ .inr), hab.kept c r (h ∘ .inl)]
  collided := by
    have later (c r) (h : cov' c r) : b.1.get c r = a.1.get c r := hab.kept c r fun h' => hdisj c r h' h
    rw [hbd.collided, hab.collided, or_assoc]
    refine or_congr_right ⟨?_, ?_⟩
    · rintro (⟨c, r, h, hg⟩ | ⟨c, r, h, hg⟩)
      · exact ⟨c, r, .inl h, hg⟩
      · exact ⟨c, r, .inr h, later c r h ▸ hg⟩
    · rintro ⟨c, r, h | h, hg⟩
      · exact .inl ⟨c, r, h, hg⟩
      · exact .inr ⟨c, r, h, (later c r h).symm ▸ hg⟩

/-! ## One bit, one row, the sprite -/

theorem drawBit_draws (edge : DrawEdge) (u v : Nat) (bit : Bool) (a : Display × Bool) :
    Draws (fun c r => bit = true ∧ landsOn edge u v c r) a (drawBit edge u v bit a) where
  toggled c r h := by
    rcases drawBit_get edge u v bit a c r with ⟨hg, _⟩ | ⟨_, hn⟩
    · exact hg
    · exact absurd h hn
  kept c r h := by
    rcases drawBit_get edge u v bit a c r with ⟨_, hc⟩ | ⟨hg, _⟩
    · exact absurd hc h
    · exact hg
  collided := by
    rw [drawBit_coll]
    refine or_congr_right ⟨?_, ?_⟩
    · rintro ⟨hbit, c, r, hl, hg⟩
      exact ⟨c, r, ⟨hbit, hl⟩, hg⟩
    · rintro ⟨c, r, ⟨hbit, hl⟩, hg⟩
      exact ⟨hbit, c, r, hl, hg⟩

/-- Bits that land on one pixel are of one column modulo 64 and of one row modulo 32. -/
theorem landsOn_unique {edge : DrawEdge} {u v u' v' : Nat} {c : Fin 64} {r : Fin 32} (h : landsOn edge u v c r)
    (h' : landsOn edge u' v' c r) : u % 64 = u' % 64 ∧ v % 32 = v' % 32 := by
  cases edge <;> simp only [landsOn] at h h' <;> omega

/-- Some 1-bit among the first `m` of a row byte lands on the pixel. -/
def RowCovers (edge : DrawEdge) (cx v : Nat) (row : Byte) (m : Nat) : PixelSet := fun c r =>
  ∃ j < m, spriteBit row j = true ∧ landsOn edge (cx + j) v c r

theorem rowCovers_succ (edge : DrawEdge) (cx v : Nat) (row : Byte) (m : Nat) (c : Fin 64) (r : Fin 32) :
    RowCovers edge cx v row (m + 1) c r ↔
      RowCovers edge cx v row m c r ∨ (spriteBit row m = true ∧ landsOn edge (cx + m) v c r) := by
  simp only [RowCovers, Nat.lt_succ_iff_lt_or_eq, or_and_right, exists_or, exists_eq_left]

/-- The bits of a row, up to 64 of which would stand on columns of their own. -/
theorem drawBits_draws (edge : DrawEdge) (cx v : Nat) (row : Byte) (a : Display × Bool) {m : Nat} (hm : m ≤ 64) :
    Draws (RowCovers edge cx v row m) a
      ((List.range m).foldl (fun acc j => drawBit edge (cx + j) v (spriteBit row j) acc) a) := by
  induction m with
  | zero => exact Draws.nothing (fun c r ⟨_, hj, _⟩ => absurd hj (Nat.not_lt_zero _)) a
  | succ m ih =>
    rw [List.range_succ, List.foldl_append]
    refine ((ih (by omega)).trans (drawBit_draws edge (cx + m) v (spriteBit row m) _) ?_).congr
      fun c r => (rowCovers_succ edge cx v row m c r).symm
    rintro c r ⟨j, hj, _, hl⟩ ⟨_, hl'⟩
    have hcol := (landsOn_unique hl hl').1
    omega

theorem drawRow_draws (edge : DrawEdge) (cx v : Nat) (row : Byte) (a : Display × Bool) :
    Draws (RowCovers edge cx v row 8) a (drawRow edge cx v row a) := drawBits_draws edge cx v row a (by omega)

/-- Some 1-bit of the rows, the first at display row `v`, lands on the pixel. -/
def RowsCover (edge : DrawEdge) (cx v : Nat) (rows : List Byte) : PixelSet := fun c r =>
  ∃ (k : Nat) (hk : k < rows.length), RowCovers edge cx (v + k) rows[k] 8 c r

theorem rowsCover_cons (edge : DrawEdge) (cx v : Nat) (row : Byte) (rows : List Byte) (c : Fin 64) (r : Fin 32) :
    RowsCover edge cx v (row :: rows) c r ↔ RowCovers edge cx v row 8 c r ∨ RowsCover edge cx (v + 1) rows c r := by
  constructor
  · rintro ⟨_ | k, hk, h⟩
    · exact .inl h
    · exact .inr ⟨k, by simpa using hk, by simpa [Nat.add_assoc, Nat.add_comm 1] using h⟩
  · rintro (h | ⟨k, hk, h⟩)
    · exact ⟨0, by simp, h⟩
    · exact ⟨k + 1, by simpa using hk, by simpa [Nat.add_assoc, Nat.add_comm 1] using h⟩

/-- Rows, up to 32 of which stand on display rows of their own. -/
theorem drawRows_draws (edge : DrawEdge) (cx : Nat) : ∀ (v : Nat) (rows : List Byte) (a : Display × Bool),
    rows.length ≤ 32 → Draws (RowsCover edge cx v rows) a (drawRows edge cx v rows a)
  | v, [], a, _ => Draws.nothing (fun c r ⟨_, hk, _⟩ => absurd hk (Nat.not_lt_zero _)) a
  | v, row :: rows, a, hlen => by
    simp only [List.length_cons] at hlen
    refine ((drawRow_draws edge cx v row a).trans (drawRows_draws edge cx (v + 1) rows _ (by omega)) ?_).congr
      fun c r => (rowsCover_cons edge cx v row rows c r).symm
    rintro c r ⟨_, _, _, hl⟩ ⟨k, hk, _, _, _, hl'⟩
    have hrow := (landsOn_unique hl hl').2
    omega

/-! ## DRW (R231 to R234) -/

variable {s t u : State} {x y n : Nibble}

/-- The rows at `I` cover what the statements call the sprite. -/
theorem rowsCover_readBytes (s : State) (x y n : Nibble) (c : Fin 64) (r : Fin 32) :
    RowsCover s.cfg.drawEdge (s.getV x).toNat (s.getV y).toNat (s.readBytes s.i.toNat n.toNat) c r ↔
      SpriteCovers s x y n c r := by
  constructor
  · rintro ⟨k, hk, j, hj, hbit, hl⟩
    rw [State.readBytes_length] at hk
    rw [State.readBytes_get s _ _ k hk] at hbit
    exact ⟨k, j, hk, hj, hbit, hl⟩
  · rintro ⟨k, j, hk, hj, hbit, hl⟩
    refine ⟨k, by simpa using hk, j, hj, ?_, hl⟩
    rw [State.readBytes_get s _ _ k hk]
    exact hbit

/-- DRW draws the sprite on the grid, with the flag 0 before. -/
theorem drawn_draws (s : State) (x y n : Nibble) :
    Draws (SpriteCovers s x y n) (s.pix, false) (s.drawn x y n) :=
  (drawRows_draws _ _ _ _ (s.pix, false) (by rw [State.readBytes_length]; omega)).congr (rowsCover_readBytes s x y n)

theorem errorOf_drw_of_fits (h : n = 0 ∨ s.i.toNat + n.toNat ≤ 4096) : errorOf s (.drwVxVyN x y n) = none :=
  if_pos (h.imp_left fun hn => by simp [hn])

/-- What a completed DRW leaves in VF. -/
theorem okEffect_drw_getV_regF (s : State) (x y n : Nibble) :
    (okEffect s (.drwVxVyN x y n)).getV 0xF#4 = flagByte (s.drawn x y n).2 :=
  State.getV_setV_same _ regF _

theorem flagByte_eq_one (f : Bool) : flagByte f = 1 ↔ f = true := by
  cases f <;> decide

theorem flagByte_eq_zero (f : Bool) : flagByte f = 0 ↔ ¬f = true := by
  cases f <;> decide

/-- The collision of R231: a 1-bit met a pixel that was 1. -/
theorem drawn_collided (s : State) (x y n : Nibble) :
    (s.drawn x y n).2 = true ↔ ∃ c r, SpriteCovers s x y n c r ∧ s.pix.get c r = true :=
  (drawn_draws s x y n).collided.trans (by simp)

/-- Settles O36: `drawn_draws` on the pixels and the flag; past 4095 the range check raises. -/
theorem drawXorsTheSprite : Obligations.DrawXorsTheSprite := by
  intro x y n s
  have hdraws := drawn_draws s x y n
  refine ⟨fun h => ?draw, fun hn h => raisesError_of_errorOf_some (if_neg ?past)⟩
  case draw =>
    have hflag := okEffect_drw_getV_regF s x y n
    refine ⟨_, exec_of_errorOf_none (errorOf_drw_of_fits h), rfl, hdraws.toggled, hdraws.kept, fun hc => ?one,
      fun hc => ?zero, fun j hj => ?others, okEffect_setResult_keepsAllBut s (.drwVxVyN x y n) .ok⟩
    case one => exact hflag.trans ((flagByte_eq_one _).mpr ((drawn_collided s x y n).mpr hc))
    case zero => exact hflag.trans ((flagByte_eq_zero _).mpr (mt (drawn_collided s x y n).mp hc))
    case others => exact State.getV_setV_ne _ hj _
  case past =>
    have hn' : n.toNat ≠ 0 := fun e => hn (BitVec.eq_of_toNat_eq e)
    omega

theorem spriteCovers_congr (hx : u.getV x = s.getV x) (hy : u.getV y = s.getV y) (hi : u.i = s.i)
    (hmem : ∀ a, u.readByte a = s.readByte a) (hcfg : u.cfg = s.cfg) (c : Fin 64) (r : Fin 32) :
    SpriteCovers u x y n c r ↔ SpriteCovers s x y n c r := by
  simp only [SpriteCovers, hx, hy, hi, hmem, hcfg]

/-- Settles O37: a covered pixel is toggled twice, any other never; the second draw meets the toggled grid. -/
theorem drawingTwiceRestoresTheDisplay : Obligations.DrawingTwiceRestoresTheDisplay := by
  intro x y n s t u v hfirst hok hx hy hi hmem hcfg hpix hsecond hok'
  obtain ⟨-, rfl⟩ := exec_ok hfirst hok
  obtain ⟨-, rfl⟩ := exec_ok hsecond hok'
  have hs := drawn_draws s x y n
  have hu := (drawn_draws u x y n).congr (spriteCovers_congr hx hy hi hmem hcfg)
  have hpix : ∀ c r, u.pix.get c r = (s.drawn x y n).1.get c r := hpix
  refine ⟨fun c r => ?restored, ?firstFlag, ?secondFlag⟩
  case restored =>
    show (u.drawn x y n).1.get c r = s.pix.get c r
    by_cases hc : SpriteCovers s x y n c r
    · rw [hu.toggled c r hc, hpix, hs.toggled c r hc, Bool.not_not]
    · rw [hu.kept c r hc, hpix, hs.kept c r hc]
  case firstFlag =>
    rw [State.getV_setResult, okEffect_drw_getV_regF, flagByte_eq_one, drawn_collided]
  case secondFlag =>
    rw [State.getV_setResult, okEffect_drw_getV_regF, flagByte_eq_one, hu.collided]
    have hmet (c r) (hc : SpriteCovers s x y n c r) : u.pix.get c r = !s.pix.get c r :=
      (hpix c r).trans (hs.toggled c r hc)
    simp only [Bool.false_eq_true, false_or]
    refine exists₂_congr fun c r => and_congr_right fun hc => ?_
    rw [hmet c r hc, Bool.not_eq_true']

/-- Settles O38: on the clear grid a covered pixel becomes 1, any other stays 0, and no 1-bit meets a 1. -/
theorem clearThenDrawLeavesTheSprite : Obligations.ClearThenDrawLeavesTheSprite := by
  intro x y n s t u hcls hdraw hok
  rw [exec_cls, complete_eq_next] at hcls
  obtain ⟨-, rfl⟩ := exec_ok hdraw hok
  have hclear (c r) : t.pix.get c r = false := hcls ▸ Display.get_clear c r
  have hcover (c r) : SpriteCovers t x y n c r ↔ SpriteCovers s x y n c r :=
    hcls ▸ spriteCovers_congr rfl rfl rfl (fun _ => rfl) rfl c r
  have hdraws := (drawn_draws t x y n).congr hcover
  refine ⟨?flag, fun c r => ?pixel⟩
  case flag =>
    rw [State.getV_setResult, okEffect_drw_getV_regF, flagByte_eq_zero, drawn_collided]
    simp [hclear]
  case pixel =>
    show (t.drawn x y n).1.get c r = true ↔ _
    by_cases hc : SpriteCovers s x y n c r
    · simp [hdraws.toggled c r hc, hclear, hc]
    · simp [hdraws.kept c r hc, hclear, hc]

end Sys2Proof.Machine
end
